-- ==== Sys2Proof/Word.lean ====
section
/-! DEFINITION. The words of the RST-DSP core: binary32 samples, 32-bit register words, 64-bit
command words, and the plain data a word-addressed array is held in. What is computed on them is in
`Machine/Float.lean` and `Machine/Ops.lean`. -/

namespace Sys2Proof

/-- A sample, or a real-valued parameter: a binary32 bit pattern, bit 31 the sign, bits 30 to 23 the
exponent, bits 22 to 0 the fraction (R12, R22, R71). Any of the 2^32 patterns may stand. -/
abbrev F32 := BitVec 32

/-- A 32-bit register word as the host sees it: an immediate, a phase accumulator, `RESP` (R11, R26). -/
abbrev Word32 := BitVec 32

/-- A 64-bit command word (R90). -/
abbrev CmdWord := BitVec 64

/-- The words of one word-addressed array, as a list of (word index, word) pairs with the indices
strictly rising. What an index that is not listed reads as is said where the array is read: +0.0 in a
private buffer (R83) and in the noise table, the power-on sample in the block memory (R23). -/
abbrev WordMem := List (Nat × F32)

end Sys2Proof
end

