-- ==== Sys2Proof/Syntax.lean ====
section
/-! DEFINITION. The 64 commands of the set RSTDSP-1 (R100), one constructor for each row of the
opcode table. Operands stand in the assembler's order (R106): instance, destination block or the one
block of an in-place form, source block, modulation block; or instance, register number, value. -/

namespace Sys2Proof

/-- A command. Instance, block and register numbers are indices (R99); the value of a `SETP` is the
raw 32-bit immediate, which the addressed register's type reads (R27). -/
inductive Instr where
  | sysNop
  | sysSetp (reg : Nat) (imm : Word32)
  | sysGetp (reg : Nat)
  | bufClr (bD : Nat)
  | bufCpy (bD bS : Nat)
  | bufAcc (bD bS : Nat)
  | oscProc (i bD bS : Nat)
  | oscProci (i bX : Nat)
  | oscReset (i : Nat)
  | oscSetp (i reg : Nat) (imm : Word32)
  | oscGetp (i reg : Nat)
  | fltProc (i bD bS : Nat)
  | fltProci (i bX : Nat)
  | fltReset (i : Nat)
  | fltSetp (i reg : Nat) (imm : Word32)
  | fltGetp (i reg : Nat)
  | envProc (i bD bS : Nat)
  | envProci (i bX : Nat)
  | envReset (i : Nat)
  | envSetp (i reg : Nat) (imm : Word32)
  | envGetp (i reg : Nat)
  | envStart (i : Nat)
  | envRel (i : Nat)
  | envStep (i : Nat)
  | dlyProc (i bD bS : Nat)
  | dlyProci (i bX : Nat)
  | dlyReset (i : Nat)
  | dlySetp (i reg : Nat) (imm : Word32)
  | dlyGetp (i reg : Nat)
  | cmbProc (i bD bS : Nat)
  | cmbProci (i bX : Nat)
  | cmbReset (i : Nat)
  | cmbSetp (i reg : Nat) (imm : Word32)
  | cmbGetp (i reg : Nat)
  | apfProc (i bD bS : Nat)
  | apfProci (i bX : Nat)
  | apfReset (i : Nat)
  | apfSetp (i reg : Nat) (imm : Word32)
  | apfGetp (i reg : Nat)
  | revProc (i bD bS : Nat)
  | revProci (i bX : Nat)
  | revReset (i : Nat)
  | revSetp (i reg : Nat) (imm : Word32)
  | revGetp (i reg : Nat)
  | phaProc (i bD bS bM : Nat)
  | phaProci (i bX bM : Nat)
  | phaReset (i : Nat)
  | phaSetp (i reg : Nat) (imm : Word32)
  | phaGetp (i reg : Nat)
  | vibProc (i bD bS bM : Nat)
  | vibProci (i bX bM : Nat)
  | vibReset (i : Nat)
  | vibSetp (i reg : Nat) (imm : Word32)
  | vibGetp (i reg : Nat)
  | trmProc (i bD bS bM : Nat)
  | trmProci (i bX bM : Nat)
  | trmReset (i : Nat)
  | trmSetp (i reg : Nat) (imm : Word32)
  | trmGetp (i reg : Nat)
  | pshProc (i bD bS : Nat)
  | pshProci (i bX : Nat)
  | pshReset (i : Nat)
  | pshSetp (i reg : Nat) (imm : Word32)
  | pshGetp (i reg : Nat)
deriving DecidableEq, Repr

end Sys2Proof
end

