-- ==== Sys2Proof/WellFormed.lean ====
section
/-! DEFINITION. Which commands have an encoding: every instance, block and register number is an
unsigned 8-bit field (R91, R99). Whether the machine has such an instance, block or register is
asked when the command runs (R104), not here. -/

namespace Sys2Proof

/-- The operand fits the 8-bit field that carries it (R91). -/
def fits8 (n : Nat) : Bool := decide (n < 256)

/-- Every operand of the command fits its field. -/
def WellFormed (i : Instr) : Bool :=
  match i with
  | .sysNop => true
  | .sysSetp a _ => fits8 a
  | .sysGetp a => fits8 a
  | .bufClr a => fits8 a
  | .bufCpy a b => fits8 a && fits8 b
  | .bufAcc a b => fits8 a && fits8 b
  | .oscProc i a b => fits8 i && fits8 a && fits8 b
  | .oscProci i a => fits8 i && fits8 a
  | .oscReset i => fits8 i
  | .oscSetp i a _ => fits8 i && fits8 a
  | .oscGetp i a => fits8 i && fits8 a
  | .fltProc i a b => fits8 i && fits8 a && fits8 b
  | .fltProci i a => fits8 i && fits8 a
  | .fltReset i => fits8 i
  | .fltSetp i a _ => fits8 i && fits8 a
  | .fltGetp i a => fits8 i && fits8 a
  | .envProc i a b => fits8 i && fits8 a && fits8 b
  | .envProci i a => fits8 i && fits8 a
  | .envReset i => fits8 i
  | .envSetp i a _ => fits8 i && fits8 a
  | .envGetp i a => fits8 i && fits8 a
  | .envStart i => fits8 i
  | .envRel i => fits8 i
  | .envStep i => fits8 i
  | .dlyProc i a b => fits8 i && fits8 a && fits8 b
  | .dlyProci i a => fits8 i && fits8 a
  | .dlyReset i => fits8 i
  | .dlySetp i a _ => fits8 i && fits8 a
  | .dlyGetp i a => fits8 i && fits8 a
  | .cmbProc i a b => fits8 i && fits8 a && fits8 b
  | .cmbProci i a => fits8 i && fits8 a
  | .cmbReset i => fits8 i
  | .cmbSetp i a _ => fits8 i && fits8 a
  | .cmbGetp i a => fits8 i && fits8 a
  | .apfProc i a b => fits8 i && fits8 a && fits8 b
  | .apfProci i a => fits8 i && fits8 a
  | .apfReset i => fits8 i
  | .apfSetp i a _ => fits8 i && fits8 a
  | .apfGetp i a => fits8 i && fits8 a
  | .revProc i a b => fits8 i && fits8 a && fits8 b
  | .revProci i a => fits8 i && fits8 a
  | .revReset i => fits8 i
  | .revSetp i a _ => fits8 i && fits8 a
  | .revGetp i a => fits8 i && fits8 a
  | .phaProc i a b m => fits8 i && fits8 a && fits8 b && fits8 m
  | .phaProci i a m => fits8 i && fits8 a && fits8 m
  | .phaReset i => fits8 i
  | .phaSetp i a _ => fits8 i && fits8 a
  | .phaGetp i a => fits8 i && fits8 a
  | .vibProc i a b m => fits8 i && fits8 a && fits8 b && fits8 m
  | .vibProci i a m => fits8 i && fits8 a && fits8 m
  | .vibReset i => fits8 i
  | .vibSetp i a _ => fits8 i && fits8 a
  | .vibGetp i a => fits8 i && fits8 a
  | .trmProc i a b m => fits8 i && fits8 a && fits8 b && fits8 m
  | .trmProci i a m => fits8 i && fits8 a && fits8 m
  | .trmReset i => fits8 i
  | .trmSetp i a _ => fits8 i && fits8 a
  | .trmGetp i a => fits8 i && fits8 a
  | .pshProc i a b => fits8 i && fits8 a && fits8 b
  | .pshProci i a => fits8 i && fits8 a
  | .pshReset i => fits8 i
  | .pshSetp i a _ => fits8 i && fits8 a
  | .pshGetp i a => fits8 i && fits8 a

end Sys2Proof
end

