-- ==== Sys2Proof/Decode.lean ====
section
/-! DEFINITION. Command words (R90, R91): the field layout, the decoder (R93 to R101), the encoder, and
the opcode table of R100 as data. The decoder is total; a word that matches no row gives none, which the
machine answers with IllegalOpcode (R103). -/

namespace Sys2Proof

/-! ### Fields (R91) -/

/-- `cw[lo+len-1 : lo]` as an unsigned number (R11). -/
def cwField (cw : CmdWord) (lo len : Nat) : Nat := cw.toNat / 2 ^ lo % 2 ^ len

/-- The opcode byte `cls ++ fn`. -/
def cwOp (cw : CmdWord) : Nat := cwField cw 56 8

def cwInst (cw : CmdWord) : Nat := cwField cw 48 8

def cwRa (cw : CmdWord) : Nat := cwField cw 40 8

def cwRb (cw : CmdWord) : Nat := cwField cw 32 8

def cwImm (cw : CmdWord) : Nat := cwField cw 0 32

/-- A command word from its fields, each kept to its own width. -/
def packCommand (op inst ra rb imm : Nat) : CmdWord :=
  BitVec.ofNat 64
    (op % 256 * 2 ^ 56 + inst % 256 * 2 ^ 48 + ra % 256 * 2 ^ 40 + rb % 256 * 2 ^ 32 + imm % 2 ^ 32)

/-! ### Decoding -/

/-- The command, if the fields its format requires to be zero are zero (R101). -/
def zeroed (ok : Bool) (i : Instr) : Option Instr := if ok then some i else none

/-- The command that an opcode byte and the four other fields stand for (R92 to R98). -/
def decodeFields (op inst ra rb imm : Nat) : Option Instr :=
  match op with
  | 0x00 => zeroed (inst == 0 && ra == 0 && rb == 0 && imm == 0) (.sysNop)
  | 0x03 => zeroed (inst == 0 && rb == 0) (.sysSetp ra (BitVec.ofNat 32 imm))
  | 0x04 => zeroed (inst == 0 && rb == 0 && imm == 0) (.sysGetp ra)
  | 0x10 => zeroed (inst == 0 && rb == 0 && imm == 0) (.bufClr ra)
  | 0x11 => zeroed (inst == 0 && imm == 0) (.bufCpy ra rb)
  | 0x12 => zeroed (inst == 0 && imm == 0) (.bufAcc ra rb)
  | 0x20 => zeroed (imm == 0) (.oscProc inst ra rb)
  | 0x21 => zeroed (rb == 0 && imm == 0) (.oscProci inst ra)
  | 0x22 => zeroed (ra == 0 && rb == 0 && imm == 0) (.oscReset inst)
  | 0x23 => zeroed (rb == 0) (.oscSetp inst ra (BitVec.ofNat 32 imm))
  | 0x24 => zeroed (rb == 0 && imm == 0) (.oscGetp inst ra)
  | 0x30 => zeroed (imm == 0) (.fltProc inst ra rb)
  | 0x31 => zeroed (rb == 0 && imm == 0) (.fltProci inst ra)
  | 0x32 => zeroed (ra == 0 && rb == 0 && imm == 0) (.fltReset inst)
  | 0x33 => zeroed (rb == 0) (.fltSetp inst ra (BitVec.ofNat 32 imm))
  | 0x34 => zeroed (rb == 0 && imm == 0) (.fltGetp inst ra)
  | 0x40 => zeroed (imm == 0) (.envProc inst ra rb)
  | 0x41 => zeroed (rb == 0 && imm == 0) (.envProci inst ra)
  | 0x42 => zeroed (ra == 0 && rb == 0 && imm == 0) (.envReset inst)
  | 0x43 => zeroed (rb == 0) (.envSetp inst ra (BitVec.ofNat 32 imm))
  | 0x44 => zeroed (rb == 0 && imm == 0) (.envGetp inst ra)
  | 0x45 => zeroed (ra == 0 && rb == 0 && imm == 0) (.envStart inst)
  | 0x46 => zeroed (ra == 0 && rb == 0 && imm == 0) (.envRel inst)
  | 0x47 => zeroed (ra == 0 && rb == 0 && imm == 0) (.envStep inst)
  | 0x50 => zeroed (imm == 0) (.dlyProc inst ra rb)
  | 0x51 => zeroed (rb == 0 && imm == 0) (.dlyProci inst ra)
  | 0x52 => zeroed (ra == 0 && rb == 0 && imm == 0) (.dlyReset inst)
  | 0x53 => zeroed (rb == 0) (.dlySetp inst ra (BitVec.ofNat 32 imm))
  | 0x54 => zeroed (rb == 0 && imm == 0) (.dlyGetp inst ra)
  | 0x60 => zeroed (imm == 0) (.cmbProc inst ra rb)
  | 0x61 => zeroed (rb == 0 && imm == 0) (.cmbProci inst ra)
  | 0x62 => zeroed (ra == 0 && rb == 0 && imm == 0) (.cmbReset inst)
  | 0x63 => zeroed (rb == 0) (.cmbSetp inst ra (BitVec.ofNat 32 imm))
  | 0x64 => zeroed (rb == 0 && imm == 0) (.cmbGetp inst ra)
  | 0x70 => zeroed (imm == 0) (.apfProc inst ra rb)
  | 0x71 => zeroed (rb == 0 && imm == 0) (.apfProci inst ra)
  | 0x72 => zeroed (ra == 0 && rb == 0 && imm == 0) (.apfReset inst)
  | 0x73 => zeroed (rb == 0) (.apfSetp inst ra (BitVec.ofNat 32 imm))
  | 0x74 => zeroed (rb == 0 && imm == 0) (.apfGetp inst ra)
  | 0x80 => zeroed (imm == 0) (.revProc inst ra rb)
  | 0x81 => zeroed (rb == 0 && imm == 0) (.revProci inst ra)
  | 0x82 => zeroed (ra == 0 && rb == 0 && imm == 0) (.revReset inst)
  | 0x83 => zeroed (rb == 0) (.revSetp inst ra (BitVec.ofNat 32 imm))
  | 0x84 => zeroed (rb == 0 && imm == 0) (.revGetp inst ra)
  | 0x90 => zeroed (imm / 256 == 0) (.phaProc inst ra rb (imm % 256))
  | 0x91 => zeroed (rb == 0 && imm / 256 == 0) (.phaProci inst ra (imm % 256))
  | 0x92 => zeroed (ra == 0 && rb == 0 && imm == 0) (.phaReset inst)
  | 0x93 => zeroed (rb == 0) (.phaSetp inst ra (BitVec.ofNat 32 imm))
  | 0x94 => zeroed (rb == 0 && imm == 0) (.phaGetp inst ra)
  | 0xA0 => zeroed (imm / 256 == 0) (.vibProc inst ra rb (imm % 256))
  | 0xA1 => zeroed (rb == 0 && imm / 256 == 0) (.vibProci inst ra (imm % 256))
  | 0xA2 => zeroed (ra == 0 && rb == 0 && imm == 0) (.vibReset inst)
  | 0xA3 => zeroed (rb == 0) (.vibSetp inst ra (BitVec.ofNat 32 imm))
  | 0xA4 => zeroed (rb == 0 && imm == 0) (.vibGetp inst ra)
  | 0xB0 => zeroed (imm / 256 == 0) (.trmProc inst ra rb (imm % 256))
  | 0xB1 => zeroed (rb == 0 && imm / 256 == 0) (.trmProci inst ra (imm % 256))
  | 0xB2 => zeroed (ra == 0 && rb == 0 && imm == 0) (.trmReset inst)
  | 0xB3 => zeroed (rb == 0) (.trmSetp inst ra (BitVec.ofNat 32 imm))
  | 0xB4 => zeroed (rb == 0 && imm == 0) (.trmGetp inst ra)
  | 0xC0 => zeroed (imm == 0) (.pshProc inst ra rb)
  | 0xC1 => zeroed (rb == 0 && imm == 0) (.pshProci inst ra)
  | 0xC2 => zeroed (ra == 0 && rb == 0 && imm == 0) (.pshReset inst)
  | 0xC3 => zeroed (rb == 0) (.pshSetp inst ra (BitVec.ofNat 32 imm))
  | 0xC4 => zeroed (rb == 0 && imm == 0) (.pshGetp inst ra)
  | _ => none

/-- The command a word encodes, if it matches a row of R100. -/
def decode (cw : CmdWord) : Option Instr :=
  decodeFields (cwOp cw) (cwInst cw) (cwRa cw) (cwRb cw) (cwImm cw)

/-- What the host asks of the decoder: the command read from the low `nbits` bits of `w`, every other
bit of the word zero. The word reaches the command port whole, so no byte order comes in (R71). -/
def decodeTableWord (nbits w : Nat) : Option Instr := decode (BitVec.ofNat 64 (w % 2 ^ nbits))

/-! ### Encoding -/

/-- The word that encodes a command (R91, R93 to R98). -/
def encode (i : Instr) : CmdWord :=
  match i with
  | .sysNop => packCommand 0x00 0 0 0 0
  | .sysSetp a v => packCommand 0x03 0 a 0 v.toNat
  | .sysGetp a => packCommand 0x04 0 a 0 0
  | .bufClr a => packCommand 0x10 0 a 0 0
  | .bufCpy a b => packCommand 0x11 0 a b 0
  | .bufAcc a b => packCommand 0x12 0 a b 0
  | .oscProc i a b => packCommand 0x20 i a b 0
  | .oscProci i a => packCommand 0x21 i a 0 0
  | .oscReset i => packCommand 0x22 i 0 0 0
  | .oscSetp i a v => packCommand 0x23 i a 0 v.toNat
  | .oscGetp i a => packCommand 0x24 i a 0 0
  | .fltProc i a b => packCommand 0x30 i a b 0
  | .fltProci i a => packCommand 0x31 i a 0 0
  | .fltReset i => packCommand 0x32 i 0 0 0
  | .fltSetp i a v => packCommand 0x33 i a 0 v.toNat
  | .fltGetp i a => packCommand 0x34 i a 0 0
  | .envProc i a b => packCommand 0x40 i a b 0
  | .envProci i a => packCommand 0x41 i a 0 0
  | .envReset i => packCommand 0x42 i 0 0 0
  | .envSetp i a v => packCommand 0x43 i a 0 v.toNat
  | .envGetp i a => packCommand 0x44 i a 0 0
  | .envStart i => packCommand 0x45 i 0 0 0
  | .envRel i => packCommand 0x46 i 0 0 0
  | .envStep i => packCommand 0x47 i 0 0 0
  | .dlyProc i a b => packCommand 0x50 i a b 0
  | .dlyProci i a => packCommand 0x51 i a 0 0
  | .dlyReset i => packCommand 0x52 i 0 0 0
  | .dlySetp i a v => packCommand 0x53 i a 0 v.toNat
  | .dlyGetp i a => packCommand 0x54 i a 0 0
  | .cmbProc i a b => packCommand 0x60 i a b 0
  | .cmbProci i a => packCommand 0x61 i a 0 0
  | .cmbReset i => packCommand 0x62 i 0 0 0
  | .cmbSetp i a v => packCommand 0x63 i a 0 v.toNat
  | .cmbGetp i a => packCommand 0x64 i a 0 0
  | .apfProc i a b => packCommand 0x70 i a b 0
  | .apfProci i a => packCommand 0x71 i a 0 0
  | .apfReset i => packCommand 0x72 i 0 0 0
  | .apfSetp i a v => packCommand 0x73 i a 0 v.toNat
  | .apfGetp i a => packCommand 0x74 i a 0 0
  | .revProc i a b => packCommand 0x80 i a b 0
  | .revProci i a => packCommand 0x81 i a 0 0
  | .revReset i => packCommand 0x82 i 0 0 0
  | .revSetp i a v => packCommand 0x83 i a 0 v.toNat
  | .revGetp i a => packCommand 0x84 i a 0 0
  | .phaProc i a b m => packCommand 0x90 i a b (m % 256)
  | .phaProci i a m => packCommand 0x91 i a 0 (m % 256)
  | .phaReset i => packCommand 0x92 i 0 0 0
  | .phaSetp i a v => packCommand 0x93 i a 0 v.toNat
  | .phaGetp i a => packCommand 0x94 i a 0 0
  | .vibProc i a b m => packCommand 0xA0 i a b (m % 256)
  | .vibProci i a m => packCommand 0xA1 i a 0 (m % 256)
  | .vibReset i => packCommand 0xA2 i 0 0 0
  | .vibSetp i a v => packCommand 0xA3 i a 0 v.toNat
  | .vibGetp i a => packCommand 0xA4 i a 0 0
  | .trmProc i a b m => packCommand 0xB0 i a b (m % 256)
  | .trmProci i a m => packCommand 0xB1 i a 0 (m % 256)
  | .trmReset i => packCommand 0xB2 i 0 0 0
  | .trmSetp i a v => packCommand 0xB3 i a 0 v.toNat
  | .trmGetp i a => packCommand 0xB4 i a 0 0
  | .pshProc i a b => packCommand 0xC0 i a b 0
  | .pshProci i a => packCommand 0xC1 i a 0 0
  | .pshReset i => packCommand 0xC2 i 0 0 0
  | .pshSetp i a v => packCommand 0xC3 i a 0 v.toNat
  | .pshGetp i a => packCommand 0xC4 i a 0 0

/-! ### The opcode table (R100) -/

/-- One row of R100: a word `cw` encodes the command exactly when `cw AND mask` is `pattern`. -/
structure OpRow where
  mnemonic : String
  mask : CmdWord
  pattern : CmdWord
deriving DecidableEq, Repr

/-- The word is an encoding of the row's command (R100). -/
def OpRow.covers (r : OpRow) (cw : CmdWord) : Bool := cw &&& r.mask == r.pattern

/-- Rows of R100, part 1 of 4. -/
def opcodeRows1 : List OpRow := [
  ⟨"SYS.NOP", 0xFFFFFFFFFFFFFFFF#64, 0x0000000000000000#64⟩,
  ⟨"SYS.SETP", 0xFFFF00FF00000000#64, 0x0300000000000000#64⟩,
  ⟨"SYS.GETP", 0xFFFF00FFFFFFFFFF#64, 0x0400000000000000#64⟩,
  ⟨"BUF.CLR", 0xFFFF00FFFFFFFFFF#64, 0x1000000000000000#64⟩,
  ⟨"BUF.CPY", 0xFFFF0000FFFFFFFF#64, 0x1100000000000000#64⟩,
  ⟨"BUF.ACC", 0xFFFF0000FFFFFFFF#64, 0x1200000000000000#64⟩,
  ⟨"OSC.PROC", 0xFF000000FFFFFFFF#64, 0x2000000000000000#64⟩,
  ⟨"OSC.PROCI", 0xFF0000FFFFFFFFFF#64, 0x2100000000000000#64⟩,
  ⟨"OSC.RESET", 0xFF00FFFFFFFFFFFF#64, 0x2200000000000000#64⟩,
  ⟨"OSC.SETP", 0xFF0000FF00000000#64, 0x2300000000000000#64⟩,
  ⟨"OSC.GETP", 0xFF0000FFFFFFFFFF#64, 0x2400000000000000#64⟩,
  ⟨"FLT.PROC", 0xFF000000FFFFFFFF#64, 0x3000000000000000#64⟩,
  ⟨"FLT.PROCI", 0xFF0000FFFFFFFFFF#64, 0x3100000000000000#64⟩,
  ⟨"FLT.RESET", 0xFF00FFFFFFFFFFFF#64, 0x3200000000000000#64⟩,
  ⟨"FLT.SETP", 0xFF0000FF00000000#64, 0x3300000000000000#64⟩,
  ⟨"FLT.GETP", 0xFF0000FFFFFFFFFF#64, 0x3400000000000000#64⟩]

/-- Rows of R100, part 2 of 4. -/
def opcodeRows2 : List OpRow := [
  ⟨"ENV.PROC", 0xFF000000FFFFFFFF#64, 0x4000000000000000#64⟩,
  ⟨"ENV.PROCI", 0xFF0000FFFFFFFFFF#64, 0x4100000000000000#64⟩,
  ⟨"ENV.RESET", 0xFF00FFFFFFFFFFFF#64, 0x4200000000000000#64⟩,
  ⟨"ENV.SETP", 0xFF0000FF00000000#64, 0x4300000000000000#64⟩,
  ⟨"ENV.GETP", 0xFF0000FFFFFFFFFF#64, 0x4400000000000000#64⟩,
  ⟨"ENV.START", 0xFF00FFFFFFFFFFFF#64, 0x4500000000000000#64⟩,
  ⟨"ENV.REL", 0xFF00FFFFFFFFFFFF#64, 0x4600000000000000#64⟩,
  ⟨"ENV.STEP", 0xFF00FFFFFFFFFFFF#64, 0x4700000000000000#64⟩,
  ⟨"DLY.PROC", 0xFF000000FFFFFFFF#64, 0x5000000000000000#64⟩,
  ⟨"DLY.PROCI", 0xFF0000FFFFFFFFFF#64, 0x5100000000000000#64⟩,
  ⟨"DLY.RESET", 0xFF00FFFFFFFFFFFF#64, 0x5200000000000000#64⟩,
  ⟨"DLY.SETP", 0xFF0000FF00000000#64, 0x5300000000000000#64⟩,
  ⟨"DLY.GETP", 0xFF0000FFFFFFFFFF#64, 0x5400000000000000#64⟩,
  ⟨"CMB.PROC", 0xFF000000FFFFFFFF#64, 0x6000000000000000#64⟩,
  ⟨"CMB.PROCI", 0xFF0000FFFFFFFFFF#64, 0x6100000000000000#64⟩,
  ⟨"CMB.RESET", 0xFF00FFFFFFFFFFFF#64, 0x6200000000000000#64⟩]

/-- Rows of R100, part 3 of 4. -/
def opcodeRows3 : List OpRow := [
  ⟨"CMB.SETP", 0xFF0000FF00000000#64, 0x6300000000000000#64⟩,
  ⟨"CMB.GETP", 0xFF0000FFFFFFFFFF#64, 0x6400000000000000#64⟩,
  ⟨"APF.PROC", 0xFF000000FFFFFFFF#64, 0x7000000000000000#64⟩,
  ⟨"APF.PROCI", 0xFF0000FFFFFFFFFF#64, 0x7100000000000000#64⟩,
  ⟨"APF.RESET", 0xFF00FFFFFFFFFFFF#64, 0x7200000000000000#64⟩,
  ⟨"APF.SETP", 0xFF0000FF00000000#64, 0x7300000000000000#64⟩,
  ⟨"APF.GETP", 0xFF0000FFFFFFFFFF#64, 0x7400000000000000#64⟩,
  ⟨"REV.PROC", 0xFF000000FFFFFFFF#64, 0x8000000000000000#64⟩,
  ⟨"REV.PROCI", 0xFF0000FFFFFFFFFF#64, 0x8100000000000000#64⟩,
  ⟨"REV.RESET", 0xFF00FFFFFFFFFFFF#64, 0x8200000000000000#64⟩,
  ⟨"REV.SETP", 0xFF0000FF00000000#64, 0x8300000000000000#64⟩,
  ⟨"REV.GETP", 0xFF0000FFFFFFFFFF#64, 0x8400000000000000#64⟩,
  ⟨"PHA.PROC", 0xFF000000FFFFFF00#64, 0x9000000000000000#64⟩,
  ⟨"PHA.PROCI", 0xFF0000FFFFFFFF00#64, 0x9100000000000000#64⟩,
  ⟨"PHA.RESET", 0xFF00FFFFFFFFFFFF#64, 0x9200000000000000#64⟩,
  ⟨"PHA.SETP", 0xFF0000FF00000000#64, 0x9300000000000000#64⟩]

/-- Rows of R100, part 4 of 4. -/
def opcodeRows4 : List OpRow := [
  ⟨"PHA.GETP", 0xFF0000FFFFFFFFFF#64, 0x9400000000000000#64⟩,
  ⟨"VIB.PROC", 0xFF000000FFFFFF00#64, 0xA000000000000000#64⟩,
  ⟨"VIB.PROCI", 0xFF0000FFFFFFFF00#64, 0xA100000000000000#64⟩,
  ⟨"VIB.RESET", 0xFF00FFFFFFFFFFFF#64, 0xA200000000000000#64⟩,
  ⟨"VIB.SETP", 0xFF0000FF00000000#64, 0xA300000000000000#64⟩,
  ⟨"VIB.GETP", 0xFF0000FFFFFFFFFF#64, 0xA400000000000000#64⟩,
  ⟨"TRM.PROC", 0xFF000000FFFFFF00#64, 0xB000000000000000#64⟩,
  ⟨"TRM.PROCI", 0xFF0000FFFFFFFF00#64, 0xB100000000000000#64⟩,
  ⟨"TRM.RESET", 0xFF00FFFFFFFFFFFF#64, 0xB200000000000000#64⟩,
  ⟨"TRM.SETP", 0xFF0000FF00000000#64, 0xB300000000000000#64⟩,
  ⟨"TRM.GETP", 0xFF0000FFFFFFFFFF#64, 0xB400000000000000#64⟩,
  ⟨"PSH.PROC", 0xFF000000FFFFFFFF#64, 0xC000000000000000#64⟩,
  ⟨"PSH.PROCI", 0xFF0000FFFFFFFFFF#64, 0xC100000000000000#64⟩,
  ⟨"PSH.RESET", 0xFF00FFFFFFFFFFFF#64, 0xC200000000000000#64⟩,
  ⟨"PSH.SETP", 0xFF0000FF00000000#64, 0xC300000000000000#64⟩,
  ⟨"PSH.GETP", 0xFF0000FFFFFFFFFF#64, 0xC400000000000000#64⟩]

/-- The 64 rows of R100. -/
def opcodeTable : List OpRow := opcodeRows1 ++ opcodeRows2 ++ opcodeRows3 ++ opcodeRows4

/-- The mnemonic of a command (R92, R106). -/
def mnemonic (i : Instr) : String :=
  match i with
  | .sysNop => "SYS.NOP"
  | .sysSetp _ _ => "SYS.SETP"
  | .sysGetp _ => "SYS.GETP"
  | .bufClr _ => "BUF.CLR"
  | .bufCpy _ _ => "BUF.CPY"
  | .bufAcc _ _ => "BUF.ACC"
  | .oscProc _ _ _ => "OSC.PROC"
  | .oscProci _ _ => "OSC.PROCI"
  | .oscReset _ => "OSC.RESET"
  | .oscSetp _ _ _ => "OSC.SETP"
  | .oscGetp _ _ => "OSC.GETP"
  | .fltProc _ _ _ => "FLT.PROC"
  | .fltProci _ _ => "FLT.PROCI"
  | .fltReset _ => "FLT.RESET"
  | .fltSetp _ _ _ => "FLT.SETP"
  | .fltGetp _ _ => "FLT.GETP"
  | .envProc _ _ _ => "ENV.PROC"
  | .envProci _ _ => "ENV.PROCI"
  | .envReset _ => "ENV.RESET"
  | .envSetp _ _ _ => "ENV.SETP"
  | .envGetp _ _ => "ENV.GETP"
  | .envStart _ => "ENV.START"
  | .envRel _ => "ENV.REL"
  | .envStep _ => "ENV.STEP"
  | .dlyProc _ _ _ => "DLY.PROC"
  | .dlyProci _ _ => "DLY.PROCI"
  | .dlyReset _ => "DLY.RESET"
  | .dlySetp _ _ _ => "DLY.SETP"
  | .dlyGetp _ _ => "DLY.GETP"
  | .cmbProc _ _ _ => "CMB.PROC"
  | .cmbProci _ _ => "CMB.PROCI"
  | .cmbReset _ => "CMB.RESET"
  | .cmbSetp _ _ _ => "CMB.SETP"
  | .cmbGetp _ _ => "CMB.GETP"
  | .apfProc _ _ _ => "APF.PROC"
  | .apfProci _ _ => "APF.PROCI"
  | .apfReset _ => "APF.RESET"
  | .apfSetp _ _ _ => "APF.SETP"
  | .apfGetp _ _ => "APF.GETP"
  | .revProc _ _ _ => "REV.PROC"
  | .revProci _ _ => "REV.PROCI"
  | .revReset _ => "REV.RESET"
  | .revSetp _ _ _ => "REV.SETP"
  | .revGetp _ _ => "REV.GETP"
  | .phaProc _ _ _ _ => "PHA.PROC"
  | .phaProci _ _ _ => "PHA.PROCI"
  | .phaReset _ => "PHA.RESET"
  | .phaSetp _ _ _ => "PHA.SETP"
  | .phaGetp _ _ => "PHA.GETP"
  | .vibProc _ _ _ _ => "VIB.PROC"
  | .vibProci _ _ _ => "VIB.PROCI"
  | .vibReset _ => "VIB.RESET"
  | .vibSetp _ _ _ => "VIB.SETP"
  | .vibGetp _ _ => "VIB.GETP"
  | .trmProc _ _ _ _ => "TRM.PROC"
  | .trmProci _ _ _ => "TRM.PROCI"
  | .trmReset _ => "TRM.RESET"
  | .trmSetp _ _ _ => "TRM.SETP"
  | .trmGetp _ _ => "TRM.GETP"
  | .pshProc _ _ _ => "PSH.PROC"
  | .pshProci _ _ => "PSH.PROCI"
  | .pshReset _ => "PSH.RESET"
  | .pshSetp _ _ _ => "PSH.SETP"
  | .pshGetp _ _ => "PSH.GETP"

end Sys2Proof
end

