-- ==== Sys2Proof/Config.lean ====
section
/-! DEFINITION. What one build of the core fixes (R9, R43): the configuration record, the test
configuration `T` (R10), and the values that the spec leaves open, as constants without a body. -/

namespace Sys2Proof

/-- The four binary32 operations of R12, to say which of them returned a NaN. -/
inductive FOp where
  | add
  | sub
  | mul
  | div
deriving DecidableEq, Repr

/-- The configuration record of R9: every size and constant that is "fixed at construction".
It is no state (R43): nothing writes it. A field that has a default in R9 has it here, for a build that
does not override it; the others are OPEN (R9, U11) and every build gives them. -/
structure Config where
  /-- `BLOCK_LEN`, samples in a block register. -/
  blockLen : Nat
  /-- `NBLK`, the number of block registers. -/
  nBlk : Nat
  nOsc : Nat
  nFlt : Nat
  nEnv : Nat
  nDly : Nat
  nCmb : Nat
  nApf : Nat
  nRev : Nat
  nPha : Nat
  nVib : Nat
  nTrm : Nat
  nPsh : Nat
  /-- `WT_BITS`, log2 of the wavetable length. -/
  wtBits : Nat := 10
  /-- `NOISE`, the noise wavetable: an index that is not listed holds +0.0. -/
  noise : WordMem
  capDly : Nat
  capCmb : Nat
  capApf : Nat
  /-- `CAP_REV_CB[0..3]`, the four reverb comb buffers. -/
  capRevCb0 : Nat := 3460
  capRevCb1 : Nat := 2988
  capRevCb2 : Nat := 3882
  capRevCb3 : Nat := 4312
  /-- `CAP_REV_AP[0..2]`, the three reverb allpass buffers. -/
  capRevAp0 : Nat := 480
  capRevAp1 : Nat := 161
  capRevAp2 : Nat := 46
  capPha : Nat
  /-- `N_PHA_STAGES`, allpass stages in a phaser. -/
  nPhaStages : Nat := 1
  capVib : Nat
  capPsh : Nat
  /-- `Q_MIN`, `Q_MAX`, the legal range of the filter resonance. -/
  qMin : F32 := 0x3F000000#32
  qMax : F32 := 0x41800000#32
  /-- `SPEED_MAX`, the largest pitch-shifter speed. -/
  speedMax : F32 := 0x40800000#32
deriving DecidableEq, Repr

/-- `WT_LEN = 2^WT_BITS` (R9). -/
def Config.wtLen (c : Config) : Nat := 2 ^ c.wtBits

/-- The test configuration `T` of R10, which `State.reset` is built with (notes/assumptions/1.md). -/
def Config.test : Config where
  blockLen := 8
  nBlk := 4
  nOsc := 2
  nFlt := 2
  nEnv := 2
  nDly := 2
  nCmb := 2
  nApf := 2
  nRev := 2
  nPha := 2
  nVib := 2
  nTrm := 2
  nPsh := 2
  wtBits := 10
  noise := []
  capDly := 8
  capCmb := 8
  capApf := 4
  capRevCb0 := 5
  capRevCb1 := 7
  capRevCb2 := 9
  capRevCb3 := 11
  capRevAp0 := 4
  capRevAp1 := 3
  capRevAp2 := 2
  capPha := 8
  nPhaStages := 1
  capVib := 8
  capPsh := 8
  qMin := 0x3F000000#32
  qMax := 0x41800000#32
  speedMax := 0x40800000#32

/-- FREE VALUE (R12, U3; notes/assumptions/3.md): the sign of the NaN that an operation returns. -/
opaque Config.nanSign : FOp → F32 → F32 → Bool

/-- FREE VALUE (R12, U3; notes/assumptions/3.md): the fraction field, less one, of the NaN that an
operation returns. Every NaN has a fraction from 1 to 8388607. -/
opaque Config.nanFraction : FOp → F32 → F32 → Fin 8388607

/-- FREE VALUE (R23, U1; notes/assumptions/2.md): the pattern that sample `n` of block register `i`
holds after the `k`-th hard reset, until the host or a command writes it. -/
opaque Config.blockPowerOn : (k i n : Nat) → F32

end Sys2Proof
end

