-- ==== Sys2Proof/Machine/Float.lean ====
section
/-! DEFINITION. Binary32 arithmetic (R12) and the conversions and clamps of R13: IEEE 754 with
round-to-nearest, ties to even, one rounding for each operation, subnormals kept, no trap and no flag.
A finite operand is read as a whole number of units of 2^-149, the operation is done exactly, and
the exact result is rounded once. -/

namespace Sys2Proof.Machine

/-! ### Constants (`95_test_vectors.md` section 1.1) -/

def fZero : F32 := 0x00000000#32
def fQuarter : F32 := 0x3E800000#32
def fHalf : F32 := 0x3F000000#32
def fOne : F32 := 0x3F800000#32
def fTwo : F32 := 0x40000000#32
def fMinusOne : F32 := 0xBF800000#32
def fMinusTwo : F32 := 0xC0000000#32
def fFour : F32 := 0x40800000#32
/-- 2147483648.0 -/
def fTwo31 : F32 := 0x4F000000#32
/-- -2147483648.0 -/
def fMinusTwo31 : F32 := 0xCF000000#32
/-- 4294967296.0 -/
def fTwo32 : F32 := 0x4F800000#32

/-! ### Reading a pattern -/

/-- The sign bit (R71). -/
def fSign (x : F32) : Bool := decide (2 ^ 31 ≤ x.toNat)

/-- The pattern without its sign; it orders magnitudes, infinity above every finite one. -/
def fMag (x : F32) : Nat := x.toNat % 2 ^ 31

/-- The magnitude pattern of infinity; a NaN is above it. -/
def fInfMag : Nat := 0x7F800000

def fIsNaN (x : F32) : Bool := decide (fInfMag < fMag x)

def fIsInf (x : F32) : Bool := decide (fMag x = fInfMag)

def fIsFinite (x : F32) : Bool := decide (fMag x < fInfMag)

/-- The value of a magnitude pattern as a whole number of units of 2^-149: a subnormal below 2^23, a
normal with its hidden bit above. The pattern of infinity gives 2^128, where rounding to it begins. -/
def magUnits (m : Nat) : Nat :=
  if m < 2 ^ 23 then m else (2 ^ 23 + m % 2 ^ 23) * 2 ^ (m / 2 ^ 23 - 1)

/-- The magnitude of a finite pattern in units of 2^-149. -/
def fUnits (x : F32) : Nat := magUnits (fMag x)

/-- The value of a finite pattern in units of 2^-149. -/
def fInt (x : F32) : Int := if fSign x then -(fUnits x : Int) else (fUnits x : Int)

/-! ### Rounding -/

/-- `num / den` rounded to the nearest whole number, ties to even (R12). -/
def roundHalfEven (num den : Nat) : Nat :=
  if den < 2 * (num % den) ∨ (2 * (num % den) = den ∧ num / den % 2 = 1)
  then num / den + 1
  else num / den

/-- The magnitude pattern nearest to `num / den` units of 2^-149: with `e` the number of binary
places above the 24 of the format, the quotient is rounded to a multiple of `2^e`; a magnitude of
2^128 or more after rounding is infinity (R12). -/
def roundMag (num den : Nat) : Nat :=
  min ((Nat.log2 (num / den) - 23) * 2 ^ 23
        + roundHalfEven num (den * 2 ^ (Nat.log2 (num / den) - 23)))
      fInfMag

/-- The pattern with a given sign and magnitude pattern. -/
def fPack (neg : Bool) (mag : Nat) : F32 := BitVec.ofNat 32 ((if neg then 2 ^ 31 else 0) + mag)

/-- The NaN an operation returns: its sign and fraction are free values (U3). -/
def fNaNResult (op : FOp) (a b : F32) : F32 :=
  fPack (Config.nanSign op a b) (fInfMag + 1 + (Config.nanFraction op a b).val)

/-! ### The four operations -/

/-- `-x`, which only turns the sign bit over. -/
def fNeg (x : F32) : F32 := x ^^^ 0x80000000#32

/-- The exact sum, rounded; an exact zero is +0.0 unless both operands are negative. -/
def fAddFinite (a b : F32) : F32 :=
  if fInt a + fInt b = 0 then fPack (fSign a && fSign b) 0
  else fPack (decide (fInt a + fInt b < 0)) (roundMag (fInt a + fInt b).natAbs 1)

/-- The sum of `a` and `b`, where `nan` is what an invalid sum returns. -/
def fSumWith (nan a b : F32) : F32 :=
  if fIsNaN a || fIsNaN b then nan
  else if fIsInf a then (if fIsInf b && (fSign a != fSign b) then nan else a)
  else if fIsInf b then b
  else fAddFinite a b

/-- `a + b` on `F32` (R12). -/
def fAdd (a b : F32) : F32 := fSumWith (fNaNResult .add a b) a b

/-- `a - b` on `F32` (R12). -/
def fSub (a b : F32) : F32 := fSumWith (fNaNResult .sub a b) a (fNeg b)

/-- `a * b` on `F32` (R12). -/
def fMul (a b : F32) : F32 :=
  if fIsNaN a || fIsNaN b then fNaNResult .mul a b
  else if fIsInf a || fIsInf b then
    (if fMag a = 0 ∨ fMag b = 0 then fNaNResult .mul a b
     else fPack (fSign a != fSign b) fInfMag)
  else fPack (fSign a != fSign b) (roundMag (fUnits a * fUnits b) (2 ^ 149))

/-- `a / b` on `F32` (R12). -/
def fDiv (a b : F32) : F32 :=
  if fIsNaN a || fIsNaN b then fNaNResult .div a b
  else if fIsInf a then
    (if fIsInf b then fNaNResult .div a b else fPack (fSign a != fSign b) fInfMag)
  else if fIsInf b then fPack (fSign a != fSign b) 0
  else if fMag b = 0 then
    (if fMag a = 0 then fNaNResult .div a b else fPack (fSign a != fSign b) fInfMag)
  else fPack (fSign a != fSign b) (roundMag (fUnits a * 2 ^ 149) (fUnits b))

/-! ### Comparisons: every one with a NaN is false (R12) -/

/-- The order of patterns that are no NaN; the two zeros have one key. -/
def fKey (x : F32) : Int := if fSign x then -(fMag x : Int) else (fMag x : Int)

def fLt (a b : F32) : Bool := !fIsNaN a && !fIsNaN b && decide (fKey a < fKey b)

def fLe (a b : F32) : Bool := !fIsNaN a && !fIsNaN b && decide (fKey a ≤ fKey b)

/-- `a > b` and `a ≥ b` are `b < a` and `b ≤ a`. -/
def fGt (a b : F32) : Bool := fLt b a

def fGe (a b : F32) : Bool := fLe b a

/-! ### Conversions and clamps (R13) -/

/-- `f2u32`: truncation toward zero, saturating; NaN and everything not above 0 give 0. -/
def f2u32 (x : F32) : Nat :=
  if fIsNaN x || fLe x fZero then 0
  else if fGe x fTwo32 then 4294967295
  else fUnits x / 2 ^ 149

/-- `f2i32`: truncation toward zero, saturating; NaN gives 0. -/
def f2i32 (x : F32) : Int :=
  if fIsNaN x then 0
  else if fGe x fTwo31 then 2147483647
  else if fLe x fMinusTwo31 then -2147483648
  else if fSign x then -((fUnits x / 2 ^ 149 : Nat) : Int) else ((fUnits x / 2 ^ 149 : Nat) : Int)

/-- The binary32 nearest to the rational `num / den`, ties to even. -/
def fOfRatio (neg : Bool) (num den : Nat) : F32 := fPack neg (roundMag (num * 2 ^ 149) den)

/-- `u2f`: the binary32 nearest to `n`, ties to even. -/
def u2f (n : Nat) : F32 := fOfRatio false n 1

/-- `clampf`: a NaN becomes the lower bound. -/
def clampf (x lo hi : F32) : F32 :=
  if fIsNaN x then lo else if fLt x lo then lo else if fGt x hi then hi else x

/-- `sati` with bounds that are natural numbers, which all of the core's are. -/
def sati (v : Int) (lo hi : Nat) : Nat :=
  if v < (lo : Int) then lo else if (hi : Int) < v then hi else v.toNat

end Sys2Proof.Machine
end

