-- ==== Sys2Proof/Machine/Units.lean ====
section
/-! DEFINITION. The register files and private buffers of one instance of each unit class (R28 to R40),
and the enumerations their registers hold. A register that only counts words (a cursor, a length, a
limit) is a natural number; a phase, a rate or a shift, which wraps at 2^32, is a 32-bit word. -/

namespace Sys2Proof.Machine

/-! ### Classes -/

/-- The unit classes with instances (R2). -/
inductive UnitClass where
  | osc
  | flt
  | env
  | dly
  | cmb
  | apf
  | rev
  | pha
  | vib
  | trm
  | psh
deriving DecidableEq, Repr

/-! ### Enumerated registers -/

/-- The waveforms of `OSC.WAVE` and `OSC.MORPHWAVE` (R29). -/
inductive Wave where
  | sine
  | sawtooth
  | square
  | pulse
  | triangle
  | noise
  | silence
deriving DecidableEq, Repr

/-- `FLT.MODE` (R30). -/
inductive FltMode where
  | lowPass
  | notch
deriving DecidableEq, Repr

/-- `ENV.PHASE` (R31). -/
inductive EnvPhase where
  | attack
  | decay
  | sustain
  | release
deriving DecidableEq, Repr

/-- `TRM.MODSRC` (R38): the internal LFO or the modulation block. -/
inductive ModSrc where
  | internal
  | external
deriving DecidableEq, Repr

/-! ### The units -/

/-- `OSC[i]` (R29). -/
structure Osc where
  wave : Wave
  pitch : F32
  level : F32
  pan : F32
  morphWave : Wave
  morph : F32
  phase : Word32
deriving DecidableEq, Repr

/-- `FLT[i]` (R30). `a0` and `a1` are the two feedback coefficients after normalisation. -/
structure Flt where
  cutoff : F32
  res : F32
  mode : FltMode
  b0 : F32
  b1 : F32
  b2 : F32
  a0 : F32
  a1 : F32
  w0 : F32
  w1 : F32
deriving DecidableEq, Repr

/-- `ENV[i]` (R31); `active` is the flag of R25. -/
structure Env where
  attack : F32
  decay : F32
  sustain : F32
  release : F32
  phase : EnvPhase
  control : F32
  active : Bool
deriving DecidableEq, Repr

/-- `DLY[i]` (R32). -/
structure Dly where
  length : Nat
  inLevel : F32
  outLevel : F32
  feedback : F32
  wcur : Nat
  buf : WordMem
deriving DecidableEq, Repr

/-- A buffer with a wrap limit, a gain and a cursor: `CMB[i]` (R33), `APF[i]` (R34), and each of the
seven filters inside a reverb (R35). -/
structure Line where
  limit : Nat
  gain : F32
  cur : Nat
  buf : WordMem
deriving DecidableEq, Repr

/-- `REV[i]` (R35): four combs and three allpasses of its own. -/
structure Rev where
  level : F32
  time : F32
  cb0 : Line
  cb1 : Line
  cb2 : Line
  cb3 : Line
  ap0 : Line
  ap1 : Line
  ap2 : Line
deriving DecidableEq, Repr

/-- One allpass stage of a phaser (R36). -/
structure PhaStage where
  cur : Nat
  buf : WordMem
deriving DecidableEq, Repr

/-- `PHA[i]` (R36): `N_PHA_STAGES` stages, the first one first. -/
structure Pha where
  depth : F32
  gain : F32
  stages : List PhaStage
deriving DecidableEq, Repr

/-- `VIB[i]` (R37). -/
structure Vib where
  depth : F32
  intensity : Nat
  intenCur : Nat
  wcur : Nat
  buf : WordMem
deriving DecidableEq, Repr

/-- `TRM[i]` (R38). -/
structure Trm where
  depth : F32
  modSrc : ModSrc
  rate : Word32
  shift : Word32
  lfoPhase : Word32
deriving DecidableEq, Repr

/-- `PSH[i]` (R39). -/
structure Psh where
  speed : F32
  feedback : F32
  mix : F32
  wcur : Nat
  rpos : F32
  buf : WordMem
deriving DecidableEq, Repr

end Sys2Proof.Machine
end

