-- ==== Sys2Proof/Machine/Reset.lean ====
section
/-! DEFINITION. The hard-reset value of every register and buffer of a unit: the columns headed "hard
reset" of R28 to R39. A private buffer lists nothing, which reads as +0.0 (R40, R83). -/

namespace Sys2Proof.Machine

def Osc.hardReset : Osc where
  wave := .silence
  pitch := fZero
  level := fOne
  pan := fHalf
  morphWave := .silence
  morph := fZero
  phase := 0#32

def Flt.hardReset (c : Config) : Flt where
  cutoff := fOne
  res := c.qMin
  mode := .lowPass
  b0 := fOne
  b1 := fTwo
  b2 := fOne
  a0 := fTwo
  a1 := fOne
  w0 := fZero
  w1 := fZero

def Env.hardReset : Env where
  attack := fOne
  decay := fOne
  sustain := fOne
  release := fOne
  phase := .release
  control := fZero
  active := false

def Dly.hardReset : Dly where
  length := 0
  inLevel := fOne
  outLevel := fZero
  feedback := fZero
  wcur := 0
  buf := []

/-- A buffer of `cap` words with its wrap limit at the capacity (R33 to R35). -/
def Line.hardReset (cap : Nat) (gain : F32) : Line where
  limit := cap
  gain := gain
  cur := 0
  buf := []

/-- The comb gains 0.805, 0.827, 0.783, 0.764 and the allpass gain 0.7 are the patterns of R35. -/
def Rev.hardReset (c : Config) : Rev where
  level := fZero
  time := fOne
  cb0 := Line.hardReset c.capRevCb0 0x3F4E147B#32
  cb1 := Line.hardReset c.capRevCb1 0x3F53B646#32
  cb2 := Line.hardReset c.capRevCb2 0x3F4872B0#32
  cb3 := Line.hardReset c.capRevCb3 0x3F439581#32
  ap0 := Line.hardReset c.capRevAp0 0x3F333333#32
  ap1 := Line.hardReset c.capRevAp1 0x3F333333#32
  ap2 := Line.hardReset c.capRevAp2 0x3F333333#32

def PhaStage.hardReset : PhaStage where
  cur := 0
  buf := []

def Pha.hardReset (c : Config) : Pha where
  depth := fZero
  gain := fZero
  stages := List.replicate c.nPhaStages PhaStage.hardReset

def Vib.hardReset : Vib where
  depth := fZero
  intensity := 0
  intenCur := 0
  wcur := 0
  buf := []

def Trm.hardReset : Trm where
  depth := fZero
  modSrc := .internal
  rate := 0#32
  shift := 0#32
  lfoPhase := 0#32

def Psh.hardReset : Psh where
  speed := fOne
  feedback := fZero
  mix := fZero
  wcur := 0
  rpos := fZero
  buf := []

end Sys2Proof.Machine
end

