-- ==== Sys2Proof/Machine/State.lean ====
section
/-! DEFINITION. The complete state of the core (R20, R21, R25, R26, R28 to R40), the host's part of the
interface that a step reads (R80), the reasons a step can stop, and the state after hard reset (R300). -/

namespace Sys2Proof.Machine

/-- Reasons for a fault outcome. There is none: the one fault of the spec, IllegalCommand, is a state
the core enters (R281 to R283), so it is a next state here, and "once execution starts nothing can
fault" (R120, R280). -/
inductive Fault where
deriving DecidableEq, Repr

/-- Reasons for a refusal. Each is a situation for which the spec asks a model to refuse. -/
inductive Refusal where
  /-- An instruction without a meaning here. No arm of `exec` raises it. SAFE: the model stops. -/
  | notModelled (mnemonic : String)
  /-- A rule reached a private-buffer access at or beyond the buffer's capacity (R83, U10). Raised by
  `memRead` and `memWrite`; no state with the invariants of R42 reaches it. SAFE: the model stops. -/
  | bufferIndex
  /-- The host used the sample port with a block index at or above `NBLK` or a sample index at or above
  `BLOCK_LEN`, which R312 says to refuse (U9). Raised by `hostStep`. SAFE: the model stops. -/
  | samplePortIndex
  /-- The configuration breaks a constraint of R9, and "the rules are not claimed to hold for it" (U11).
  Raised by `step`. SAFE: the model stops. -/
  | configuration
deriving DecidableEq, Repr

/-- What the host can do between commands (R80, R36 of the decisions). -/
inductive HostAction where
  /-- Present a 64-bit command word. -/
  | issue (cw : CmdWord)
  /-- `HostWrite(i, n, v)`. -/
  | writeSample (i n : Nat) (v : F32)
  /-- `HostRead(i, n)`. -/
  | readSample (i n : Nat)
  /-- Read the `STATUS` port. -/
  | readStatus
  /-- Read the `FAULTCW` port. -/
  | readFaultcw
  /-- Read the `RESP` port. -/
  | readResp
  /-- Assert the reset input. -/
  | hardReset
deriving DecidableEq, Repr

/-- The machine. -/
structure State where
  /-- The configuration record (R9): fixed at construction, written by nothing. -/
  cfg : Config
  /-- The host's remaining actions, the next one first (R24, R80). -/
  host : List HostAction
  /-- The command port: the word of the command last executed (R79). -/
  cmdPort : CmdWord
  /-- What the host's last read of a port or of the sample port returned (R80). -/
  hostData : BitVec 64
  /-- How many hard resets there have been; it selects the free power-on samples (R23). -/
  resets : Nat
  /-- Block memory: the samples written since hard reset, word `i * BLOCK_LEN + n` for `B[i][n]`
  (R21, R70). -/
  blocks : WordMem
  /-- `SYS.OCTMUL` (R28). -/
  octmul : F32
  /-- `SYS.GPM` (R28). -/
  gpm : F32
  osc : List Osc
  flt : List Flt
  env : List Env
  dly : List Dly
  cmb : List Line
  apf : List Line
  rev : List Rev
  pha : List Pha
  vib : List Vib
  trm : List Trm
  psh : List Psh
  /-- The `STATUS` port: bit 0 `FAULT`, bits 7 to 4 `CAUSE` (R26). -/
  status : Word32
  /-- The `FAULTCW` port (R26). -/
  faultcw : CmdWord
  /-- The `RESP` port (R26). -/
  resp : Word32
deriving DecidableEq, Repr

/-- The core of configuration `c` after its `k`-th hard reset, with nothing asked of it by the host
(R300): every register at its hard-reset value, every private buffer +0.0, the three ports 0. -/
def State.powerOn (c : Config) (k : Nat) : State where
  cfg := c
  host := []
  cmdPort := 0#64
  hostData := 0#64
  resets := k
  blocks := []
  octmul := fOne
  gpm := fOne
  osc := List.replicate c.nOsc Osc.hardReset
  flt := List.replicate c.nFlt (Flt.hardReset c)
  env := List.replicate c.nEnv Env.hardReset
  dly := List.replicate c.nDly Dly.hardReset
  cmb := List.replicate c.nCmb (Line.hardReset c.capCmb fZero)
  apf := List.replicate c.nApf (Line.hardReset c.capApf fZero)
  rev := List.replicate c.nRev (Rev.hardReset c)
  pha := List.replicate c.nPha (Pha.hardReset c)
  vib := List.replicate c.nVib Vib.hardReset
  trm := List.replicate c.nTrm Trm.hardReset
  psh := List.replicate c.nPsh Psh.hardReset
  status := 0#32
  faultcw := 0#64
  resp := 0#32

/-- The machine right after reset, in the test configuration `T` of R10 (notes/assumptions/1.md). -/
def State.reset : State := State.powerOn Config.test 0

end Sys2Proof.Machine
end

