-- ==== Sys2Proof/Machine/Flags.lean ====
section
/-! DEFINITION. The two kinds of flag of R25: the fields of the `STATUS` port (R26, R284) and the
envelope's `ACTIVE`. No arithmetic operation writes a flag. -/

namespace Sys2Proof.Machine

/-- The causes of the IllegalCommand fault (R284). -/
inductive Cause where
  | illegalOpcode
  | illegalInstance
  | illegalBlock
  | illegalAlias
  | illegalRegister
deriving DecidableEq, Repr

/-- The 4-bit cause code (R284). -/
def causeCode (c : Cause) : Nat :=
  match c with
  | .illegalOpcode => 1
  | .illegalInstance => 2
  | .illegalBlock => 3
  | .illegalAlias => 4
  | .illegalRegister => 5

/-- `STATUS` in the fault state: bit 0 `FAULT`, bits 7 to 4 `CAUSE`, every other bit 0 (R26). -/
def statusWord (c : Cause) : Word32 := BitVec.ofNat 32 (causeCode c * 2 ^ 4 + 1)

/-- `STATUS.FAULT` (R26). -/
def statusFault (w : Word32) : Bool := decide (w.toNat % 2 = 1)

/-- `STATUS.CAUSE` (R26). -/
def statusCause (w : Word32) : Nat := w.toNat / 2 ^ 4 % 2 ^ 4

/-- `zext_32` of the flag `ACTIVE`, as `RESP` returns it (R25, R182). -/
def flagWord (b : Bool) : Word32 := if b then 1#32 else 0#32

/-- The flag `ACTIVE` after an envelope step: a release step that reaches +0.0 clears it, every other
step sets it (R181). -/
def activeAfter (phase : EnvPhase) (control : F32) : Bool :=
  match phase with
  | .release => !fLe control fZero
  | .attack => true
  | .decay => true
  | .sustain => true

end Sys2Proof.Machine
end

