-- ==== Sys2Proof/Machine/Ops.lean ====
section
/-! DEFINITION. The named operations over memory and registers: word arrays, the private-buffer
primitives of R83, block registers, the one place each unit's registers are written, taking the
IllegalCommand fault (R281) and the way out of it (R288, R300), the block loop (R15, R120), and the
constraints on the configuration (R9). -/

namespace Sys2Proof.Machine

/-- The outcome of a command. -/
abbrev Out := Host.Outcome State Fault Refusal

/-! ### Word arrays -/

/-- The word listed at index `a`, if there is one. -/
def wordAt (m : WordMem) (a : Nat) : Option F32 :=
  match m with
  | [] => none
  | (b, v) :: m' => if a = b then some v else if a < b then none else wordAt m' a

/-- List the word `v` at index `a`, in its place. -/
def wordPut (m : WordMem) (a : Nat) (v : F32) : WordMem :=
  match m with
  | [] => [(a, v)]
  | (b, w) :: m' =>
    if a = b then (a, v) :: m'
    else if a < b then (a, v) :: (b, w) :: m'
    else (b, w) :: wordPut m' a v

/-- List no word at index `a`. -/
def wordDrop (m : WordMem) (a : Nat) : WordMem :=
  match m with
  | [] => []
  | (b, w) :: m' =>
    if a = b then m' else if a < b then (b, w) :: m' else (b, w) :: wordDrop m' a

/-- Word `a` of an array whose unlisted words are +0.0. -/
def wordOrZero (m : WordMem) (a : Nat) : F32 := (wordAt m a).getD fZero

/-- Store `v` at `a` in an array whose unlisted words are +0.0; +0.0 itself is not listed, so that
arrays with equal words are equal lists. -/
def wordStore (m : WordMem) (a : Nat) (v : F32) : WordMem :=
  if v = fZero then wordDrop m a else wordPut m a v

/-! ### Private buffers (R83) -/

/-- `MemRead(S, a, 1)` for a private buffer of capacity `cap`. -/
def memRead (cap : Nat) (m : WordMem) (a : Nat) : Except Refusal F32 :=
  if a < cap then .ok (wordOrZero m a) else .error .bufferIndex

/-- `MemWrite(S, a, 1, v)` for a private buffer of capacity `cap`. -/
def memWrite (cap : Nat) (m : WordMem) (a : Nat) (v : F32) : Except Refusal WordMem :=
  if a < cap then .ok (wordStore m a v) else .error .bufferIndex

/-! ### Block registers (R21, R23) -/

/-- The word index of `B[i][n]` in the block memory (R70). -/
def blockIndex (c : Config) (i n : Nat) : Nat := i * c.blockLen + n

/-- `B[i][n]`: the sample last written, or the free power-on sample where nothing has been written
since hard reset (R23, U1). -/
def readSample (s : State) (i n : Nat) : F32 :=
  (wordAt s.blocks (blockIndex s.cfg i n)).getD (Config.blockPowerOn s.resets i n)

/-- `B[i][n] <- v`. -/
def writeSample (s : State) (i n : Nat) (v : F32) : State :=
  { s with blocks := wordPut s.blocks (blockIndex s.cfg i n) v }

/-! ### Unit registers and ports -/

def putOsc (s : State) (i : Nat) (u : Osc) : State := { s with osc := s.osc.set i u }

def putFlt (s : State) (i : Nat) (u : Flt) : State := { s with flt := s.flt.set i u }

def putEnv (s : State) (i : Nat) (u : Env) : State := { s with env := s.env.set i u }

def putDly (s : State) (i : Nat) (u : Dly) : State := { s with dly := s.dly.set i u }

def putCmb (s : State) (i : Nat) (u : Line) : State := { s with cmb := s.cmb.set i u }

def putApf (s : State) (i : Nat) (u : Line) : State := { s with apf := s.apf.set i u }

def putRev (s : State) (i : Nat) (u : Rev) : State := { s with rev := s.rev.set i u }

def putPha (s : State) (i : Nat) (u : Pha) : State := { s with pha := s.pha.set i u }

def putVib (s : State) (i : Nat) (u : Vib) : State := { s with vib := s.vib.set i u }

def putTrm (s : State) (i : Nat) (u : Trm) : State := { s with trm := s.trm.set i u }

def putPsh (s : State) (i : Nat) (u : Psh) : State := { s with psh := s.psh.set i u }

/-- `RESP <- v` (R124). -/
def putResp (s : State) (v : Word32) : State := { s with resp := v }

/-! ### The fault (R281) and the way out of it -/

/-- `raise IllegalCommand(cause, cw)`: `STATUS` and `FAULTCW` are written and nothing else; `cw` is the
word on the command port. -/
def raise (c : Cause) (s : State) : State :=
  { s with status := statusWord c, faultcw := s.cmdPort }

/-- Hard reset (R300): the only exit from the fault state (R282, R288). The host keeps what it has still
to do and what it has read. -/
def hardReset (s : State) : State :=
  { State.powerOn s.cfg (s.resets + 1) with host := s.host, hostData := s.hostData }

/-! ### The block loop (R15, R120) -/

/-- A per-sample rule: from the unit, the source sample and the modulation sample, the output sample
and the unit the next sample sees. -/
abbrev SampleRule (U : Type) := U → F32 → F32 → Except Refusal (F32 × U)

/-- Samples `n` to `n + k - 1` of a block operation, in order: each reads `B[bS][n]` and `B[bM][n]`
before it writes `B[bD][n]` (R15, R81, R120). -/
def blockLoop {U : Type} (rule : SampleRule U) (bD bS bM : Nat) :
    (k n : Nat) → U → State → Except Refusal (U × State)
  | 0, _, u, s => .ok (u, s)
  | k + 1, n, u, s =>
    match rule u (readSample s bS n) (readSample s bM n) with
    | .error r => .error r
    | .ok (y, u') => blockLoop rule bD bS bM k (n + 1) u' (writeSample s bD n y)

/-- A whole block: `BLOCK_LEN` samples, then the unit's new registers and buffers are put back (R120). -/
def processBlock {U : Type} (rule : SampleRule U) (put : State → U → State)
    (bD bS bM : Nat) (u : U) (s : State) : Out :=
  match blockLoop rule bD bS bM s.cfg.blockLen 0 u s with
  | .error r => .refused r
  | .ok (u', s') => .next (put s' u')

/-! ### The configuration (R9, U11) -/

/-- The indices of a word array rise strictly, from `lo` on. -/
def rising (lo : Nat) (m : WordMem) : Bool :=
  match m with
  | [] => true
  | (a, _) :: m' => decide (lo ≤ a) && rising (a + 1) m'

/-- Every listed word stands below `cap`. -/
def within (cap : Nat) (m : WordMem) : Bool := m.all fun p => decide (p.1 < cap)

/-- The one form of a word array whose unlisted words are +0.0: indices rising and below the capacity,
no +0.0 listed. -/
def Memory.wf (cap : Nat) (m : WordMem) : Bool :=
  rising 0 m && within cap m && m.all fun p => decide (p.2 ≠ fZero)

/-- A private-buffer capacity: 1 to 2^24 words. -/
def capLegal (cap : Nat) : Bool := decide (1 ≤ cap) && decide (cap ≤ 2 ^ 24)

/-- The constraints of R9 on the numbers of block registers, samples and instances. -/
def countsLegal (c : Config) : Bool :=
  decide (1 ≤ c.blockLen) && decide (c.blockLen ≤ 2 ^ 16) && decide (1 ≤ c.nBlk) && decide (c.nBlk ≤ 256)
    && [c.nOsc, c.nFlt, c.nEnv, c.nDly, c.nCmb, c.nApf, c.nRev, c.nPha, c.nVib, c.nTrm, c.nPsh].all
      fun n => decide (n ≤ 256)

/-- The constraints of R9 on the wavetables. -/
def tablesLegal (c : Config) : Bool :=
  decide (2 ≤ c.wtBits) && decide (c.wtBits ≤ 23) && Memory.wf c.wtLen c.noise

/-- The constraints of R9 on the capacities: the reverb's combs distinct, its allpasses strictly
decreasing, the pitch shifter's even and at least 8. -/
def capsLegal (c : Config) : Bool :=
  capLegal c.capDly && capLegal c.capCmb && capLegal c.capApf
    && capLegal c.capRevCb0 && capLegal c.capRevCb1 && capLegal c.capRevCb2 && capLegal c.capRevCb3
    && decide [c.capRevCb0, c.capRevCb1, c.capRevCb2, c.capRevCb3].Nodup
    && capLegal c.capRevAp0 && capLegal c.capRevAp1 && capLegal c.capRevAp2
    && decide (c.capRevAp1 < c.capRevAp0) && decide (c.capRevAp2 < c.capRevAp1)
    && capLegal c.capPha && decide (1 ≤ c.nPhaStages) && decide (c.nPhaStages ≤ 8)
    && capLegal c.capVib
    && capLegal c.capPsh && decide (8 ≤ c.capPsh) && decide (c.capPsh % 2 = 0)

/-- The constraints of R9 on `Q_MIN`, `Q_MAX` and `SPEED_MAX`. -/
def rangesLegal (c : Config) : Bool :=
  fLt fZero c.qMin && fLe c.qMin c.qMax && fIsFinite c.qMin && fIsFinite c.qMax
    && fLt fZero c.speedMax && fLe c.speedMax fFour

/-- The configuration keeps every constraint of R9. -/
def configLegal (c : Config) : Bool :=
  countsLegal c && tablesLegal c && capsLegal c && rangesLegal c

end Sys2Proof.Machine
end

