-- ==== Sys2Proof/Machine/Wavetable.lean ====
section
/-! DEFINITION. The seven wavetables (R41, R142) and the table index (R141). They are ROM: functions of
the configuration, no state. -/

namespace Sys2Proof.Machine

/-! ### The sine table

`WT[0][j]` is the binary32 nearest to sin(2πj/N) (R142). The sine of an angle in the first quarter is
computed as a whole number of units of 2^-160 from the Taylor series, which leaves an error of a few
units, and is then rounded once (notes/assumptions/6.md). -/

/-- π in units of 2^-160, rounded down. -/
def piScaled : Nat := 4591442807048218921384805199743311128454155024418

/-- The factor `1 - x²/(2k(2k+1)) * (1 - x²/((2k+2)(2k+3)) * …)` of the sine series with `fuel` more
factors, `x²` and the result in units of 2^-160. -/
def sineSeries (x2 : Nat) : (fuel k : Nat) → Nat
  | 0, _ => 2 ^ 160
  | fuel + 1, k =>
    2 ^ 160 - x2 * sineSeries x2 fuel (k + 1) / (2 ^ 160 * ((2 * k) * (2 * k + 1)))

/-- sin(π/2 · num/den) in units of 2^-160, for `num` at most `den`. -/
def sineScaled (num den : Nat) : Nat :=
  (piScaled * num / (2 * den))
    * sineSeries ((piScaled * num / (2 * den)) * (piScaled * num / (2 * den)) / 2 ^ 160) 26 1
    / 2 ^ 160

/-- The binary32 nearest to sin(π/2 · num/den), with the two ends exact; no sine is above 1, which bounds
the series (R142). -/
def sineQuarter (neg : Bool) (num den : Nat) : F32 :=
  if num = 0 then fZero
  else if num = den then (if neg then fMinusOne else fOne)
  else fOfRatio neg (min (sineScaled num den) (2 ^ 160)) (2 ^ 160)

/-- `WT[0][j]` for a table of `4 * q` entries: the four quarters mirror the first. -/
def sineEntry (q j : Nat) : F32 :=
  if j ≤ q then sineQuarter false j q
  else if j ≤ 2 * q then sineQuarter false (2 * q - j) q
  else if j ≤ 3 * q then sineQuarter true (j - 2 * q) q
  else sineQuarter true (4 * q - j) q

/-! ### The other tables -/

/-- `WT[1][j]`: 2j/N - 1. -/
def sawEntry (n j : Nat) : F32 :=
  if 2 * j < n then fOfRatio true (n - 2 * j) n else fOfRatio false (2 * j - n) n

/-- `WT[2][j]`: +1.0 above N/2, else -1.0. -/
def squareEntry (n j : Nat) : F32 := if n / 2 < j then fOne else fMinusOne

/-- `WT[3][j]`: +1.0 above N/4, else -1.0. -/
def pulseEntry (n j : Nat) : F32 := if n / 4 < j then fOne else fMinusOne

/-- `WT[4][j]`: 1 - 4j/N up to N/2, then 4j/N - 3. -/
def triEntry (n j : Nat) : F32 :=
  if j ≤ n / 2 then
    (if 4 * j ≤ n then fOfRatio false (n - 4 * j) n else fOfRatio true (4 * j - n) n)
  else
    (if 4 * j < 3 * n then fOfRatio true (3 * n - 4 * j) n else fOfRatio false (4 * j - 3 * n) n)

/-- `WT[w][j]` (R142). -/
def wavetable (c : Config) (w : Wave) (j : Nat) : F32 :=
  match w with
  | .sine => sineEntry (c.wtLen / 4) j
  | .sawtooth => sawEntry c.wtLen j
  | .square => squareEntry c.wtLen j
  | .pulse => pulseEntry c.wtLen j
  | .triangle => triEntry c.wtLen j
  | .noise => wordOrZero c.noise j
  | .silence => fZero

/-- `idx(p) = p[31 : 32-WT_BITS]` (R141). -/
def tableIndex (c : Config) (p : Word32) : Nat := p.toNat / 2 ^ (32 - c.wtBits)

/-- `WT[w][idx(p)]`. -/
def lookup (c : Config) (w : Wave) (p : Word32) : F32 := wavetable c w (tableIndex c p)

end Sys2Proof.Machine
end

