-- ==== Sys2Proof/Machine/Operands.lean ====
section
/-! DEFINITION. Operands: the decode checks of R104, which come before any write (R103), and how a
`SETP` reads and legalises its immediate (R27, R99). -/

namespace Sys2Proof.Machine

/-! ### The checks of R104, in the order R104 gives them -/

/-- Check 1: the instance exists, or IllegalInstance. -/
def withInstance {U : Type} (units : List U) (i : Nat) (s : State) (run : U → Out) : Out :=
  match units[i]? with
  | some u => run u
  | none => .next (raise .illegalInstance s)

/-- Check 2: every block field the command uses is below `NBLK`, or IllegalBlock. -/
def withBlocks (fields : List Nat) (s : State) (run : Out) : Out :=
  if fields.all (fun b => decide (b < s.cfg.nBlk)) then run else .next (raise .illegalBlock s)

/-- Check 3: the destination is not also the source of a `PROC`, nor a modulation block, or
IllegalAlias. -/
def withoutAlias (dst : Nat) (others : List Nat) (s : State) (run : Out) : Out :=
  if others.contains dst then .next (raise .illegalAlias s) else run

/-- Check 4: the class has such a register, of the kind the command needs, or IllegalRegister. -/
def withRegister {A : Type} (found : Option A) (s : State) (run : A → Out) : Out :=
  match found with
  | some a => run a
  | none => .next (raise .illegalRegister s)

/-! ### Command shapes shared by the unit classes (R120 to R124) -/

/-- Format P: `<CLS>.PROC i, bD, bS` (R93, R120). -/
def procUnit {U : Type} (units : List U) (put : State → Nat → U → State)
    (rule : Config → SampleRule U) (i bD bS : Nat) (s : State) : Out :=
  withInstance units i s fun u =>
    withBlocks [bD, bS] s (withoutAlias bD [bS] s
      (processBlock (rule s.cfg) (fun s' u' => put s' i u') bD bS bS u s))

/-- Format I: `<CLS>.PROCI i, bX`, which is `PROC` with source and destination the same (R94, R121). -/
def prociUnit {U : Type} (units : List U) (put : State → Nat → U → State)
    (rule : Config → SampleRule U) (i bX : Nat) (s : State) : Out :=
  withInstance units i s fun u =>
    withBlocks [bX] s (processBlock (rule s.cfg) (fun s' u' => put s' i u') bX bX bX u s)

/-- Format P with a modulation block: `<CLS>.PROC i, bD, bS, bM` (R93, R82). -/
def procModUnit {U : Type} (units : List U) (put : State → Nat → U → State)
    (start : U → U) (rule : Config → SampleRule U) (i bD bS bM : Nat) (s : State) : Out :=
  withInstance units i s fun u =>
    withBlocks [bD, bS, bM] s (withoutAlias bD [bS, bM] s
      (processBlock (rule s.cfg) (fun s' u' => put s' i u') bD bS bM (start u) s))

/-- Format I with a modulation block: `<CLS>.PROCI i, bX, bM` (R94, R82). -/
def prociModUnit {U : Type} (units : List U) (put : State → Nat → U → State)
    (start : U → U) (rule : Config → SampleRule U) (i bX bM : Nat) (s : State) : Out :=
  withInstance units i s fun u =>
    withBlocks [bX, bM] s (withoutAlias bX [bM] s
      (processBlock (rule s.cfg) (fun s' u' => put s' i u') bX bX bM (start u) s))

/-- Format Z: a command that only changes its unit, such as `<CLS>.RESET i` (R95, R122). -/
def updateUnit {U : Type} (units : List U) (put : State → Nat → U → State)
    (f : U → U) (i : Nat) (s : State) : Out :=
  withInstance units i s fun u => .next (put s i (f u))

/-- Format S: `<CLS>.SETP i, reg, value`; `set` gives none for a register that is not of kind P
(R96, R123). -/
def setpUnit {U : Type} (units : List U) (put : State → Nat → U → State)
    (set : U → Option U) (i : Nat) (s : State) : Out :=
  withInstance units i s fun u => withRegister (set u) s fun u' => .next (put s i u')

/-- Format G: `<CLS>.GETP i, reg`; `get` gives none for a register the class does not have
(R97, R124). -/
def getpUnit {U : Type} (units : List U) (get : U → Option Word32) (i : Nat) (s : State) : Out :=
  withInstance units i s fun u => withRegister (get u) s fun v => .next (putResp s v)

/-! ### Legalisation (R27) -/

/-- A register of type `f32[lo,hi]`. -/
def legalF32 (lo hi : F32) (imm : Word32) : F32 := clampf imm lo hi

/-- A register of type `int[lo,hi]`: the immediate is read as signed (`sext_32`, R11). -/
def legalInt (lo hi : Nat) (imm : Word32) : Nat := sati imm.toInt lo hi

/-- The unsigned value of a register that counts, as `GETP` returns it. -/
def countWord (n : Nat) : Word32 := BitVec.ofNat 32 n

/-- The waveform a number from 0 to 6 stands for (R29). -/
def waveOf (n : Nat) : Wave :=
  match n with
  | 0 => .sine
  | 1 => .sawtooth
  | 2 => .square
  | 3 => .pulse
  | 4 => .triangle
  | 5 => .noise
  | _ => .silence

/-- The number of a waveform (R29). -/
def waveIndex (w : Wave) : Nat :=
  match w with
  | .sine => 0
  | .sawtooth => 1
  | .square => 2
  | .pulse => 3
  | .triangle => 4
  | .noise => 5
  | .silence => 6

/-- A register of type `enum[0,6]` that holds a waveform. -/
def legalWave (imm : Word32) : Wave := waveOf (legalInt 0 6 imm)

/-- The number of a filter mode (R30). -/
def modeIndex (m : FltMode) : Nat :=
  match m with
  | .lowPass => 0
  | .notch => 1

/-- `FLT.MODE`, of type `enum[0,1]`. -/
def legalMode (imm : Word32) : FltMode := if legalInt 0 1 imm = 0 then .lowPass else .notch

/-- The number of an envelope phase (R31). -/
def envPhaseIndex (p : EnvPhase) : Nat :=
  match p with
  | .attack => 0
  | .decay => 1
  | .sustain => 2
  | .release => 3

/-- The number of a modulation source (R38). -/
def modSrcIndex (m : ModSrc) : Nat :=
  match m with
  | .internal => 0
  | .external => 1

/-- `TRM.MODSRC`, of type `enum[0,1]`. -/
def legalModSrc (imm : Word32) : ModSrc := if legalInt 0 1 imm = 0 then .internal else .external

end Sys2Proof.Machine
end

