-- ==== Sys2Proof/Machine/CombAllpass.lean ====
section
/-! DEFINITION. The comb and allpass primitives and their two unit classes (R210 to R222). The reverb
uses the same two primitives. -/

namespace Sys2Proof.Machine

/-- `comb_step` on a buffer of capacity `cap`: the output is the word read back, before the update
(R210). -/
def combStep (cap : Nat) (u : Line) (x : F32) : Except Refusal (F32 × Line) := do
  let readback ← memRead cap u.buf u.cur
  let written ← memWrite cap u.buf u.cur (fAdd (fMul readback u.gain) x)
  .ok (readback, { u with buf := written, cur := (u.cur + 1) % u.limit })

/-- The allpass output for the word `old` under the cursor: `old - (gain * x)` (R216, R240). -/
def allpassOut (old gain x : F32) : F32 := fSub old (fMul gain x)

/-- The word an allpass writes back: `(readback * gain) + x` (R216, R240). -/
def allpassNew (old gain x : F32) : F32 := fAdd (fMul (allpassOut old gain x) gain) x

/-- `apf_step` on a buffer of capacity `cap`, with the fixed limit (R216, R222). -/
def apfStep (cap : Nat) (u : Line) (x : F32) : Except Refusal (F32 × Line) := do
  let old ← memRead cap u.buf u.cur
  let written ← memWrite cap u.buf u.cur (allpassNew old u.gain x)
  .ok (allpassOut old u.gain x, { u with buf := written, cur := (u.cur + 1) % u.limit })

/-- The registers of `CMB` and of `APF`: kind P are 0 `LIMIT` and 1 `GAIN` (R33, R34, R214, R220). -/
def setLine (cap : Nat) (u : Line) (reg : Nat) (imm : Word32) : Option Line :=
  match reg with
  | 0 => some { u with limit := legalInt 1 cap imm }
  | 1 => some { u with gain := imm }
  | _ => none

/-- `CMB[i].reg` and `APF[i].reg` (R33, R34, R215, R221). -/
def getLine (u : Line) (reg : Nat) : Option Word32 :=
  match reg with
  | 0 => some (countWord u.limit)
  | 1 => some u.gain
  | 2 => some (countWord u.cur)
  | _ => none

/-- Cursor to 0 and every word to +0.0; limit and gain kept (R213, R219, R234). -/
def clearLine (u : Line) : Line := { u with cur := 0, buf := [] }

/-- `step_CMB` (R210). -/
def stepCmb (c : Config) : SampleRule Line := fun u x _ => combStep c.capCmb u x

/-- `step_APF` (R216). -/
def stepApf (c : Config) : SampleRule Line := fun u x _ => apfStep c.capApf u x

/-- `CMB.PROC i, bD, bS` (R211). -/
def execCmbProc (i bD bS : Nat) (s : State) : Out := procUnit s.cmb putCmb stepCmb i bD bS s

/-- `CMB.PROCI i, bX` (R212). -/
def execCmbProci (i bX : Nat) (s : State) : Out := prociUnit s.cmb putCmb stepCmb i bX s

/-- `CMB.RESET i` (R213). -/
def execCmbReset (i : Nat) (s : State) : Out := updateUnit s.cmb putCmb clearLine i s

/-- `CMB.SETP i, reg, value` (R214). -/
def execCmbSetp (i reg : Nat) (imm : Word32) (s : State) : Out :=
  setpUnit s.cmb putCmb (fun u => setLine s.cfg.capCmb u reg imm) i s

/-- `CMB.GETP i, reg` (R215). -/
def execCmbGetp (i reg : Nat) (s : State) : Out := getpUnit s.cmb (fun u => getLine u reg) i s

/-- `APF.PROC i, bD, bS` (R217). -/
def execApfProc (i bD bS : Nat) (s : State) : Out := procUnit s.apf putApf stepApf i bD bS s

/-- `APF.PROCI i, bX` (R218). -/
def execApfProci (i bX : Nat) (s : State) : Out := prociUnit s.apf putApf stepApf i bX s

/-- `APF.RESET i` (R219). -/
def execApfReset (i : Nat) (s : State) : Out := updateUnit s.apf putApf clearLine i s

/-- `APF.SETP i, reg, value` (R220). -/
def execApfSetp (i reg : Nat) (imm : Word32) (s : State) : Out :=
  setpUnit s.apf putApf (fun u => setLine s.cfg.capApf u reg imm) i s

/-- `APF.GETP i, reg` (R221). -/
def execApfGetp (i reg : Nat) (s : State) : Out := getpUnit s.apf (fun u => getLine u reg) i s

end Sys2Proof.Machine
end

