-- ==== Sys2Proof/Machine/Delay.lean ====
section
/-! DEFINITION. The circular-buffer delay line (R200 to R206). -/

namespace Sys2Proof.Machine

/-- `r`, the read cursor, derived each sample (R32, R200). -/
def dlyReadCursor (c : Config) (d : Dly) : Nat := (d.wcur + 1 + c.capDly - d.length) % c.capDly

/-- The per-sample rule (R200): the write comes before the read. -/
def stepDly (c : Config) : SampleRule Dly := fun d x _ => do
  let written ← memWrite c.capDly d.buf d.wcur (fMul x d.inLevel)
  let delayed ← memRead c.capDly written (dlyReadCursor c d)
  let here ← memRead c.capDly written d.wcur
  let mixed ← memWrite c.capDly written d.wcur (fAdd here (fMul delayed d.feedback))
  .ok (fAdd x (fMul delayed d.outLevel), { d with buf := mixed, wcur := (d.wcur + 1) % c.capDly })

/-- `DLY.SETP` to register `reg`; kind P are 0 to 3 (R32, R204). -/
def setDly (c : Config) (d : Dly) (reg : Nat) (imm : Word32) : Option Dly :=
  match reg with
  | 0 => some { d with length := legalInt 0 c.capDly imm }
  | 1 => some { d with inLevel := imm }
  | 2 => some { d with outLevel := imm }
  | 3 => some { d with feedback := imm }
  | _ => none

/-- `DLY[i].reg` (R32, R205). -/
def getDly (d : Dly) (reg : Nat) : Option Word32 :=
  match reg with
  | 0 => some (countWord d.length)
  | 1 => some d.inLevel
  | 2 => some d.outLevel
  | 3 => some d.feedback
  | 4 => some (countWord d.wcur)
  | _ => none

/-- `DLY.PROC i, bD, bS` (R201). -/
def execDlyProc (i bD bS : Nat) (s : State) : Out := procUnit s.dly putDly stepDly i bD bS s

/-- `DLY.PROCI i, bX` (R202). -/
def execDlyProci (i bX : Nat) (s : State) : Out := prociUnit s.dly putDly stepDly i bX s

/-- `DLY.RESET i` (R203). -/
def execDlyReset (i : Nat) (s : State) : Out :=
  updateUnit s.dly putDly (fun d => { d with wcur := 0, buf := [] }) i s

/-- `DLY.SETP i, reg, value` (R204). -/
def execDlySetp (i reg : Nat) (imm : Word32) (s : State) : Out :=
  setpUnit s.dly putDly (fun d => setDly s.cfg d reg imm) i s

/-- `DLY.GETP i, reg` (R205). -/
def execDlyGetp (i reg : Nat) (s : State) : Out := getpUnit s.dly (fun d => getDly d reg) i s

end Sys2Proof.Machine
end

