-- ==== Sys2Proof/Machine/Envelope.lean ====
section
/-! DEFINITION. The ADSR envelope generator (R180 to R190). -/

namespace Sys2Proof.Machine

/-- One attack step (R181, arm 0). -/
def envAttack (e : Env) : Env :=
  if fGe (fAdd e.control e.attack) fOne
  then { e with control := fOne, phase := .decay, active := activeAfter .attack fOne }
  else
    { e with
      control := fAdd e.control e.attack
      active := activeAfter .attack (fAdd e.control e.attack) }

/-- One decay step (R181, arm 1). -/
def envDecay (e : Env) : Env :=
  if fLe (fSub e.control e.decay) e.sustain
  then { e with control := e.sustain, phase := .sustain, active := activeAfter .decay e.sustain }
  else
    { e with
      control := fSub e.control e.decay
      active := activeAfter .decay (fSub e.control e.decay) }

/-- One sustain step (R181, arm 2). -/
def envSustain (e : Env) : Env := { e with active := activeAfter .sustain e.control }

/-- One release step (R181, arm 3). -/
def envRelease (e : Env) : Env :=
  if fLe (fSub e.control e.release) fZero
  then { e with control := fZero, active := activeAfter .release (fSub e.control e.release) }
  else
    { e with
      control := fSub e.control e.release
      active := activeAfter .release (fSub e.control e.release) }

/-- `step_ENV`: exactly one arm runs (R181); its return value is the new `ACTIVE`. -/
def stepEnv (e : Env) : Env :=
  match e.phase with
  | .attack => envAttack e
  | .decay => envDecay e
  | .sustain => envSustain e
  | .release => envRelease e

/-- The per-sample rule of `ENV.PROC`: one step, then the source scaled by the control value it leaves
(R183). -/
def scaleEnv : SampleRule Env := fun e x _ => .ok (fMul x (stepEnv e).control, stepEnv e)

/-- `ENV.SETP` to register `reg`; kind P are 0 to 3 (R31, R188). -/
def setEnv (e : Env) (reg : Nat) (imm : Word32) : Option Env :=
  match reg with
  | 0 => some { e with attack := legalF32 fZero fOne imm }
  | 1 => some { e with decay := legalF32 fZero fOne imm }
  | 2 => some { e with sustain := legalF32 fZero fOne imm }
  | 3 => some { e with release := legalF32 fZero fOne imm }
  | _ => none

/-- `ENV[i].reg` (R31, R189). -/
def getEnv (e : Env) (reg : Nat) : Option Word32 :=
  match reg with
  | 0 => some e.attack
  | 1 => some e.decay
  | 2 => some e.sustain
  | 3 => some e.release
  | 4 => some (countWord (envPhaseIndex e.phase))
  | 5 => some e.control
  | 6 => some (flagWord e.active)
  | _ => none

/-- `ENV.PROC i, bD, bS` (R183). -/
def execEnvProc (i bD bS : Nat) (s : State) : Out :=
  procUnit s.env putEnv (fun _ => scaleEnv) i bD bS s

/-- `ENV.PROCI i, bX` (R184). -/
def execEnvProci (i bX : Nat) (s : State) : Out := prociUnit s.env putEnv (fun _ => scaleEnv) i bX s

/-- `ENV.RESET i` (R187). -/
def execEnvReset (i : Nat) (s : State) : Out :=
  updateUnit s.env putEnv (fun e => { e with phase := .release, control := fZero, active := false }) i s

/-- `ENV.SETP i, reg, value` (R188). -/
def execEnvSetp (i reg : Nat) (imm : Word32) (s : State) : Out :=
  setpUnit s.env putEnv (fun e => setEnv e reg imm) i s

/-- `ENV.GETP i, reg` (R189). -/
def execEnvGetp (i reg : Nat) (s : State) : Out := getpUnit s.env (fun e => getEnv e reg) i s

/-- `ENV.START i` (R185). -/
def execEnvStart (i : Nat) (s : State) : Out :=
  updateUnit s.env putEnv (fun e => { e with control := fZero, phase := .attack, active := true }) i s

/-- `ENV.REL i` (R186). -/
def execEnvRel (i : Nat) (s : State) : Out :=
  updateUnit s.env putEnv (fun e => { e with phase := .release }) i s

/-- `ENV.STEP i`: one step, its flag to `RESP` (R182). -/
def execEnvStep (i : Nat) (s : State) : Out :=
  withInstance s.env i s fun e =>
    .next (putResp (putEnv s i (stepEnv e)) (flagWord (stepEnv e).active))

end Sys2Proof.Machine
end

