-- ==== Sys2Proof/Machine/Filter.lean ====
section
/-! DEFINITION. The biquad filter: coefficient design (R160 to R165) and the recurrence (R166). -/

namespace Sys2Proof.Machine

/-! ### Coefficient design -/

/-- 0.0025, the least effective angular frequency (R161). -/
def omegaMin : F32 := 0x3B23D70A#32

/-- 0.99, the pole radius of the notch (R164). -/
def notchRadius : F32 := 0x3F7D70A4#32

/-- `ω`: the cutoff warped by a cube, then clamped (R161). -/
def fltOmega (cutoff : F32) : F32 := clampf (fMul (fMul cutoff cutoff) cutoff) omegaMin fOne

/-- `ps`, the phase of the sine lookup (R161). -/
def fltSinePhase (cutoff : F32) : Word32 := BitVec.ofNat 32 (f2u32 (fMul (fltOmega cutoff) fTwo31))

/-- `sn`, sin θ by lookup (R161). -/
def fltSin (c : Config) (cutoff : F32) : F32 := lookup c .sine (fltSinePhase cutoff)

/-- `cs`, cos θ by lookup a quarter period later (R161). -/
def fltCos (c : Config) (cutoff : F32) : F32 :=
  lookup c .sine (fltSinePhase cutoff + 0x40000000#32)

/-- The five coefficients, in the order of registers 3 to 7. -/
structure FltCoefs where
  b0 : F32
  b1 : F32
  b2 : F32
  a0 : F32
  a1 : F32
deriving DecidableEq, Repr

/-- `alpha` of the low-pass design (R163). -/
def fltAlpha (sn q : F32) : F32 := fDiv sn (fMul fTwo q)

/-- `k`, the reciprocal of the normalising coefficient `ra0` (R163). -/
def fltRecip (alpha : F32) : F32 := fDiv fOne (fAdd fOne alpha)

/-- Low-pass design from sin θ, cos θ and the resonance (R163). -/
def lowPassCoefs (sn cs q : F32) : FltCoefs where
  b0 := fMul (fDiv (fSub fOne cs) fTwo) (fltRecip (fltAlpha sn q))
  b1 := fMul (fSub fOne cs) (fltRecip (fltAlpha sn q))
  b2 := fMul (fDiv (fSub fOne cs) fTwo) (fltRecip (fltAlpha sn q))
  a0 := fMul (fMul fMinusTwo cs) (fltRecip (fltAlpha sn q))
  a1 := fMul (fSub fOne (fltAlpha sn q)) (fltRecip (fltAlpha sn q))

/-- Notch design from cos θ (R164). -/
def notchCoefs (cs : F32) : FltCoefs where
  b0 := fOne
  b1 := fMul fMinusTwo cs
  b2 := fOne
  a0 := fMul (fMul fMinusTwo notchRadius) cs
  a1 := fMul notchRadius notchRadius

/-- The design rule applied to the three parameters (R161 to R164). -/
def designCoefs (c : Config) (mode : FltMode) (cutoff res : F32) : FltCoefs :=
  match mode with
  | .lowPass => lowPassCoefs (fltSin c cutoff) (fltCos c cutoff) res
  | .notch => notchCoefs (fltCos c cutoff)

/-- Write the five coefficients, all together (R30). -/
def putCoefs (f : Flt) (k : FltCoefs) : Flt :=
  { f with b0 := k.b0, b1 := k.b1, b2 := k.b2, a0 := k.a0, a1 := k.a1 }

/-- Recompute the five coefficients from the three parameters (R165). -/
def redesign (c : Config) (f : Flt) : Flt := putCoefs f (designCoefs c f.mode f.cutoff f.res)

/-! ### The recurrence (R166) -/

/-- `out = (B0 * x) + W0`. -/
def fltOut (f : Flt) (x : F32) : F32 := fAdd (fMul f.b0 x) f.w0

/-- The per-sample rule: Direct Form II Transposed, `W0` from the old `W1` (R166). -/
def stepFlt : SampleRule Flt := fun f x _ =>
  .ok (fltOut f x,
    { f with
      w0 := fAdd (fSub (fMul f.b1 x) (fMul f.a0 (fltOut f x))) f.w1
      w1 := fSub (fMul f.b2 x) (fMul f.a1 (fltOut f x)) })

/-! ### Commands -/

/-- `FLT.SETP` to register `reg`; kind P are 0 to 2, and each write recomputes the coefficients
(R30, R165). -/
def setFlt (c : Config) (f : Flt) (reg : Nat) (imm : Word32) : Option Flt :=
  match reg with
  | 0 => some (redesign c { f with cutoff := legalF32 fZero fOne imm })
  | 1 => some (redesign c { f with res := legalF32 c.qMin c.qMax imm })
  | 2 => some (redesign c { f with mode := legalMode imm })
  | _ => none

/-- `FLT[i].reg` (R30, R170). -/
def getFlt (f : Flt) (reg : Nat) : Option Word32 :=
  match reg with
  | 0 => some f.cutoff
  | 1 => some f.res
  | 2 => some (countWord (modeIndex f.mode))
  | 3 => some f.b0
  | 4 => some f.b1
  | 5 => some f.b2
  | 6 => some f.a0
  | 7 => some f.a1
  | 8 => some f.w0
  | 9 => some f.w1
  | _ => none

/-- `FLT.PROC i, bD, bS` (R167). -/
def execFltProc (i bD bS : Nat) (s : State) : Out :=
  procUnit s.flt putFlt (fun _ => stepFlt) i bD bS s

/-- `FLT.PROCI i, bX` (R168). -/
def execFltProci (i bX : Nat) (s : State) : Out := prociUnit s.flt putFlt (fun _ => stepFlt) i bX s

/-- `FLT.RESET i`: `W0` and `W1` only (R169). -/
def execFltReset (i : Nat) (s : State) : Out :=
  updateUnit s.flt putFlt (fun f => { f with w0 := fZero, w1 := fZero }) i s

/-- `FLT.SETP i, reg, value` (R165). -/
def execFltSetp (i reg : Nat) (imm : Word32) (s : State) : Out :=
  setpUnit s.flt putFlt (fun f => setFlt s.cfg f reg imm) i s

/-- `FLT.GETP i, reg` (R170). -/
def execFltGetp (i reg : Nat) (s : State) : Out := getpUnit s.flt (fun f => getFlt f reg) i s

end Sys2Proof.Machine
end

