-- ==== Sys2Proof/Machine/Oscillator.lean ====
section
/-! DEFINITION. The phase-accumulator oscillator (R140 to R149). -/

namespace Sys2Proof.Machine

/-- `inc`, the advance of the phase in one sample (R143). -/
def oscIncrement (octmul gpm : F32) (o : Osc) : Word32 :=
  BitVec.ofNat 32 (f2u32 (fMul (fMul o.pitch octmul) gpm))

/-- The phase after the first advance of a sample (R140, R143). -/
def oscAdvance (octmul gpm : F32) (o : Osc) : Word32 := o.phase + oscIncrement octmul gpm o

/-- `mterm`, the signed morph term looked up at phase `p` (R143). -/
def oscMorphTerm (c : Config) (o : Osc) (p : Word32) : Word32 :=
  BitVec.ofInt 32 (f2i32 (fMul (lookup c o.morphWave p) o.morph))

/-- The phase a sample leaves: the advance, then the morph term (R143). -/
def oscNextPhase (c : Config) (octmul gpm : F32) (o : Osc) : Word32 :=
  oscAdvance octmul gpm o + oscMorphTerm c o (oscAdvance octmul gpm o)

/-- The per-sample rule of R143: `old` is the destination's old sample, to which the new one adds. -/
def stepOsc (c : Config) (octmul gpm : F32) : SampleRule Osc := fun o old _ =>
  .ok (fAdd old (fMul (lookup c o.wave (oscNextPhase c octmul gpm o)) o.level),
    { o with phase := oscNextPhase c octmul gpm o })

/-- `OSC.SETP` to register `reg`; kind P are 0 to 5 (R29, R146). -/
def setOsc (o : Osc) (reg : Nat) (imm : Word32) : Option Osc :=
  match reg with
  | 0 => some { o with wave := legalWave imm }
  | 1 => some { o with pitch := imm }
  | 2 => some { o with level := imm }
  | 3 => some { o with pan := imm }
  | 4 => some { o with morphWave := legalWave imm }
  | 5 => some { o with morph := imm }
  | _ => none

/-- `OSC[i].reg` (R29, R148). -/
def getOsc (o : Osc) (reg : Nat) : Option Word32 :=
  match reg with
  | 0 => some (countWord (waveIndex o.wave))
  | 1 => some o.pitch
  | 2 => some o.level
  | 3 => some o.pan
  | 4 => some (countWord (waveIndex o.morphWave))
  | 5 => some o.morph
  | 6 => some o.phase
  | _ => none

/-- `OSC.PROC i, bD, bS` (R143): the source is checked and not read; the old destination is read. -/
def execOscProc (i bD bS : Nat) (s : State) : Out :=
  withInstance s.osc i s fun o =>
    withBlocks [bD, bS] s (withoutAlias bD [bS] s
      (processBlock (stepOsc s.cfg s.octmul s.gpm) (fun s' o' => putOsc s' i o') bD bD bD o s))

/-- `OSC.PROCI i, bX` (R144). -/
def execOscProci (i bX : Nat) (s : State) : Out :=
  withInstance s.osc i s fun o =>
    withBlocks [bX] s
      (processBlock (stepOsc s.cfg s.octmul s.gpm) (fun s' o' => putOsc s' i o') bX bX bX o s)

/-- `OSC.RESET i` (R145). -/
def execOscReset (i : Nat) (s : State) : Out :=
  updateUnit s.osc putOsc (fun o => { o with phase := 0#32 }) i s

/-- `OSC.SETP i, reg, value` (R146). -/
def execOscSetp (i reg : Nat) (imm : Word32) (s : State) : Out :=
  setpUnit s.osc putOsc (fun o => setOsc o reg imm) i s

/-- `OSC.GETP i, reg` (R148). -/
def execOscGetp (i reg : Nat) (s : State) : Out := getpUnit s.osc (fun o => getOsc o reg) i s

end Sys2Proof.Machine
end

