-- ==== Sys2Proof/Machine/Phaser.lean ====
section
/-! DEFINITION. The phaser: a swept cascade of allpass stages (R240 to R245). -/

namespace Sys2Proof.Machine

/-- `lim`, recomputed every sample from the modulation sample `l` and `DEPTH` (R240). -/
def phaLimit (c : Config) (depth l : F32) : Nat :=
  sati (f2u32 (fMul (fAdd fHalf (fMul fHalf (fMul l depth))) (u2f c.capPha)) : Nat) 1 c.capPha

/-- A cursor at or beyond the limit becomes 0 (R240). -/
def phaWrap (lim p : Nat) : Nat := if lim ≤ p then 0 else p

/-- One stage of the cascade for the input `y` (R240): the cursor is corrected before use and wrapped
after the increment. -/
def phaStage (c : Config) (gain : F32) (lim : Nat) (st : PhaStage) (y : F32) :
    Except Refusal (F32 × PhaStage) := do
  let old ← memRead c.capPha st.buf (phaWrap lim st.cur)
  let written ← memWrite c.capPha st.buf (phaWrap lim st.cur) (allpassNew old gain y)
  .ok (allpassOut old gain y, { st with cur := phaWrap lim (phaWrap lim st.cur + 1), buf := written })

/-- The whole cascade: each stage feeds the next (R240). -/
def phaCascade (c : Config) (gain : F32) (lim : Nat) :
    List PhaStage → F32 → Except Refusal (F32 × List PhaStage)
  | [], y => .ok (y, [])
  | st :: rest, y => do
    let (y', st') ← phaStage c gain lim st y
    let (out, rest') ← phaCascade c gain lim rest y'
    .ok (out, st' :: rest')

/-- The per-sample rule (R240). -/
def stepPha (c : Config) : SampleRule Pha := fun ph x l => do
  let (y, stages) ← phaCascade c ph.gain (phaLimit c ph.depth l) ph.stages x
  .ok (fSub x (fMul y ph.depth), { ph with stages := stages })

/-- `PHA.SETP` to register `reg`; kind P are 0 and 1 (R36, R244). -/
def setPha (ph : Pha) (reg : Nat) (imm : Word32) : Option Pha :=
  match reg with
  | 0 => some { ph with depth := legalF32 fZero fOne imm }
  | 1 => some { ph with gain := imm }
  | _ => none

/-- `PHA[i].reg`; register `2 + k` is `CUR<k>` for each stage `k` (R36, R245). -/
def getPha (ph : Pha) (reg : Nat) : Option Word32 :=
  match reg with
  | 0 => some ph.depth
  | 1 => some ph.gain
  | k + 2 => ph.stages[k]?.map fun st => countWord st.cur

/-- `PHA.RESET` on one phaser (R243). -/
def clearPha (ph : Pha) : Pha :=
  { ph with stages := ph.stages.map fun st => { st with cur := 0, buf := [] } }

/-- `PHA.PROC i, bD, bS, bM` (R241). -/
def execPhaProc (i bD bS bM : Nat) (s : State) : Out :=
  procModUnit s.pha putPha id stepPha i bD bS bM s

/-- `PHA.PROCI i, bX, bM` (R242). -/
def execPhaProci (i bX bM : Nat) (s : State) : Out := prociModUnit s.pha putPha id stepPha i bX bM s

/-- `PHA.RESET i` (R243). -/
def execPhaReset (i : Nat) (s : State) : Out := updateUnit s.pha putPha clearPha i s

/-- `PHA.SETP i, reg, value` (R244). -/
def execPhaSetp (i reg : Nat) (imm : Word32) (s : State) : Out :=
  setpUnit s.pha putPha (fun ph => setPha ph reg imm) i s

/-- `PHA.GETP i, reg` (R245). -/
def execPhaGetp (i reg : Nat) (s : State) : Out := getpUnit s.pha (fun ph => getPha ph reg) i s

end Sys2Proof.Machine
end

