-- ==== Sys2Proof/Machine/PitchShifter.lean ====
section
/-! DEFINITION. The pitch shifter: one write cursor, two crossfaded read cursors (R270 to R276). -/

namespace Sys2Proof.Machine

/-- `H`, half the buffer (R270). -/
def pshHalf (c : Config) : Nat := c.capPsh / 2

/-- `i1`, the integer part of the first read position, kept within the buffer (R270). -/
def pshRead1 (c : Config) (s : Psh) : Nat := min (f2u32 s.rpos) (c.capPsh - 1)

/-- `i2`, half a buffer from `i1` (R270). -/
def pshRead2 (c : Config) (s : Psh) : Nat := (pshRead1 c s + pshHalf c) % c.capPsh

/-- `q`, the circular distance of the read cursor `i` from the write cursor (R270). -/
def pshDistance (c : Config) (s : Psh) (i : Nat) : Nat :=
  min ((s.wcur + c.capPsh - i) % c.capPsh) (c.capPsh - (s.wcur + c.capPsh - i) % c.capPsh)

/-- `g`, the weight of the read cursor `i` (R270). -/
def pshWeight (c : Config) (s : Psh) (i : Nat) : F32 :=
  fDiv (u2f (pshDistance c s i)) (u2f (pshHalf c))

/-- `RPOS` after one sample: the advance and at most one wrap (R270). -/
def pshAdvance (c : Config) (s : Psh) : F32 :=
  if fGe (fAdd s.rpos s.speed) (u2f c.capPsh)
  then fSub (fAdd s.rpos s.speed) (u2f c.capPsh)
  else fAdd s.rpos s.speed

/-- `wet`, the crossfade of the two words read (R270). -/
def pshWet (w1 g1 w2 g2 : F32) : F32 := fAdd (fMul w1 g1) (fMul w2 g2)

/-- The per-sample rule (R270): both reads come before the write. -/
def stepPsh (c : Config) : SampleRule Psh := fun s x _ => do
  let w1 ← memRead c.capPsh s.buf (pshRead1 c s)
  let w2 ← memRead c.capPsh s.buf (pshRead2 c s)
  let wet := pshWet w1 (pshWeight c s (pshRead1 c s)) w2 (pshWeight c s (pshRead2 c s))
  let written ← memWrite c.capPsh s.buf s.wcur (fAdd x (fMul wet s.feedback))
  .ok (fAdd (fMul x (fSub fOne s.mix)) (fMul wet s.mix),
    { s with buf := written, wcur := (s.wcur + 1) % c.capPsh, rpos := pshAdvance c s })

/-- `PSH.SETP` to register `reg`; kind P are 0 to 2 (R39, R274). -/
def setPsh (c : Config) (s : Psh) (reg : Nat) (imm : Word32) : Option Psh :=
  match reg with
  | 0 => some { s with speed := legalF32 fZero c.speedMax imm }
  | 1 => some { s with feedback := imm }
  | 2 => some { s with mix := legalF32 fZero fOne imm }
  | _ => none

/-- `PSH[i].reg` (R39, R275). -/
def getPsh (s : Psh) (reg : Nat) : Option Word32 :=
  match reg with
  | 0 => some s.speed
  | 1 => some s.feedback
  | 2 => some s.mix
  | 3 => some (countWord s.wcur)
  | 4 => some s.rpos
  | _ => none

/-- `PSH.PROC i, bD, bS` (R271). -/
def execPshProc (i bD bS : Nat) (s : State) : Out := procUnit s.psh putPsh stepPsh i bD bS s

/-- `PSH.PROCI i, bX` (R272). -/
def execPshProci (i bX : Nat) (s : State) : Out := prociUnit s.psh putPsh stepPsh i bX s

/-- `PSH.RESET i` (R273). -/
def execPshReset (i : Nat) (s : State) : Out :=
  updateUnit s.psh putPsh (fun u => { u with wcur := 0, rpos := fZero, buf := [] }) i s

/-- `PSH.SETP i, reg, value` (R274). -/
def execPshSetp (i reg : Nat) (imm : Word32) (s : State) : Out :=
  setpUnit s.psh putPsh (fun u => setPsh s.cfg u reg imm) i s

/-- `PSH.GETP i, reg` (R275). -/
def execPshGetp (i reg : Nat) (s : State) : Out := getpUnit s.psh (fun u => getPsh u reg) i s

end Sys2Proof.Machine
end

