-- ==== Sys2Proof/Machine/Reverb.lean ====
section
/-! DEFINITION. The reverb network: four parallel combs, three serial allpasses (R230 to R236). -/

namespace Sys2Proof.Machine

/-- The sum of the four comb outputs, in the order of R230, scaled by 0.25. -/
def combSum (y0 y1 y2 y3 : F32) : F32 := fMul (fAdd (fAdd (fAdd y0 y1) y2) y3) fQuarter

/-- The per-sample rule (R230): all four combs take the same input, each allpass feeds the next, the
dry input is passed unscaled. -/
def stepRev (c : Config) : SampleRule Rev := fun r x _ => do
  let (y0, cb0) ← combStep c.capRevCb0 r.cb0 x
  let (y1, cb1) ← combStep c.capRevCb1 r.cb1 x
  let (y2, cb2) ← combStep c.capRevCb2 r.cb2 x
  let (y3, cb3) ← combStep c.capRevCb3 r.cb3 x
  let (z0, ap0) ← apfStep c.capRevAp0 r.ap0 (combSum y0 y1 y2 y3)
  let (z1, ap1) ← apfStep c.capRevAp1 r.ap1 z0
  let (z2, ap2) ← apfStep c.capRevAp2 r.ap2 z1
  .ok (fAdd x (fMul z2 r.level),
    { r with cb0 := cb0, cb1 := cb1, cb2 := cb2, cb3 := cb3, ap0 := ap0, ap1 := ap1, ap2 := ap2 })

/-- The limit that `TIME` gives a buffer of `cap` words (R233). -/
def revLimit (time : F32) (cap : Nat) : Nat := sati (f2u32 (fMul time (u2f cap)) : Nat) 1 cap

/-- Give a buffer the limit that `TIME` gives it; buffer, gain and cursor are not touched (R233). -/
def retime (time : F32) (cap : Nat) (u : Line) : Line := { u with limit := revLimit time cap }

/-- `REV.SETP` to `TIME`: the seven limits are rewritten together (R233). -/
def setRevTime (c : Config) (r : Rev) (time : F32) : Rev :=
  { r with
    time := time
    cb0 := retime time c.capRevCb0 r.cb0
    cb1 := retime time c.capRevCb1 r.cb1
    cb2 := retime time c.capRevCb2 r.cb2
    cb3 := retime time c.capRevCb3 r.cb3
    ap0 := retime time c.capRevAp0 r.ap0
    ap1 := retime time c.capRevAp1 r.ap1
    ap2 := retime time c.capRevAp2 r.ap2 }

/-- Give a filter of the reverb its gain. -/
def regain (u : Line) (g : F32) : Line := { u with gain := g }

/-- `REV.SETP` to register `reg`; kind P are 0 to 8 (R35, R233). -/
def setRev (c : Config) (r : Rev) (reg : Nat) (imm : Word32) : Option Rev :=
  match reg with
  | 0 => some { r with level := imm }
  | 1 => some (setRevTime c r (legalF32 fZero fOne imm))
  | 2 => some { r with cb0 := regain r.cb0 imm }
  | 3 => some { r with cb1 := regain r.cb1 imm }
  | 4 => some { r with cb2 := regain r.cb2 imm }
  | 5 => some { r with cb3 := regain r.cb3 imm }
  | 6 => some { r with ap0 := regain r.ap0 imm }
  | 7 => some { r with ap1 := regain r.ap1 imm }
  | 8 => some { r with ap2 := regain r.ap2 imm }
  | _ => none

/-- `REV[i].reg` (R35, R235). -/
def getRev (r : Rev) (reg : Nat) : Option Word32 :=
  match reg with
  | 0 => some r.level
  | 1 => some r.time
  | 2 => some r.cb0.gain
  | 3 => some r.cb1.gain
  | 4 => some r.cb2.gain
  | 5 => some r.cb3.gain
  | 6 => some r.ap0.gain
  | 7 => some r.ap1.gain
  | 8 => some r.ap2.gain
  | 9 => some (countWord r.cb0.limit)
  | 10 => some (countWord r.cb1.limit)
  | 11 => some (countWord r.cb2.limit)
  | 12 => some (countWord r.cb3.limit)
  | 13 => some (countWord r.ap0.limit)
  | 14 => some (countWord r.ap1.limit)
  | 15 => some (countWord r.ap2.limit)
  | 16 => some (countWord r.cb0.cur)
  | 17 => some (countWord r.cb1.cur)
  | 18 => some (countWord r.cb2.cur)
  | 19 => some (countWord r.cb3.cur)
  | 20 => some (countWord r.ap0.cur)
  | 21 => some (countWord r.ap1.cur)
  | 22 => some (countWord r.ap2.cur)
  | _ => none

/-- `REV.RESET` on one reverb: seven cursors and seven buffers, parameters and limits kept (R234). -/
def clearRev (r : Rev) : Rev :=
  { r with
    cb0 := clearLine r.cb0
    cb1 := clearLine r.cb1
    cb2 := clearLine r.cb2
    cb3 := clearLine r.cb3
    ap0 := clearLine r.ap0
    ap1 := clearLine r.ap1
    ap2 := clearLine r.ap2 }

/-- `REV.PROC i, bD, bS` (R231). -/
def execRevProc (i bD bS : Nat) (s : State) : Out := procUnit s.rev putRev stepRev i bD bS s

/-- `REV.PROCI i, bX` (R232). -/
def execRevProci (i bX : Nat) (s : State) : Out := prociUnit s.rev putRev stepRev i bX s

/-- `REV.RESET i` (R234). -/
def execRevReset (i : Nat) (s : State) : Out := updateUnit s.rev putRev clearRev i s

/-- `REV.SETP i, reg, value` (R233). -/
def execRevSetp (i reg : Nat) (imm : Word32) (s : State) : Out :=
  setpUnit s.rev putRev (fun r => setRev s.cfg r reg imm) i s

/-- `REV.GETP i, reg` (R235). -/
def execRevGetp (i reg : Nat) (s : State) : Out := getpUnit s.rev (fun r => getRev r reg) i s

end Sys2Proof.Machine
end

