-- ==== Sys2Proof/Machine/System.lean ====
section
/-! DEFINITION. The `SYS` and `BUF` commands (R125 to R130). -/

namespace Sys2Proof.Machine

/-- `SYS.SETP` to register `reg`: only `OCTMUL` and `GPM` are of kind P (R28, R126). -/
def setSys (s : State) (reg : Nat) (imm : Word32) : Option State :=
  match reg with
  | 0 => some { s with octmul := imm }
  | 1 => some { s with gpm := imm }
  | _ => none

/-- `SYS.reg` (R28, R127). -/
def getSys (s : State) (reg : Nat) : Option Word32 :=
  match reg with
  | 0 => some s.octmul
  | 1 => some s.gpm
  | 2 => some (countWord s.cfg.blockLen)
  | 3 => some (countWord s.cfg.nBlk)
  | 4 => some (countWord s.cfg.wtBits)
  | _ => none

/-- `SYS.NOP`: "no state changes" (R125). -/
def execSysNop (s : State) : Out := .next s

/-- `SYS.SETP reg, value` (R126). -/
def execSysSetp (reg : Nat) (imm : Word32) (s : State) : Out :=
  withRegister (setSys s reg imm) s fun s' => .next s'

/-- `SYS.GETP reg` (R127). -/
def execSysGetp (reg : Nat) (s : State) : Out :=
  withRegister (getSys s reg) s fun v => .next (putResp s v)

/-- The sample rule of `BUF.CLR`: +0.0, whatever was there. -/
def clearRule : SampleRule Unit := fun _ _ _ => .ok (fZero, ())

/-- The sample rule of `BUF.CPY`: the source bit for bit. -/
def copyRule : SampleRule Unit := fun _ x _ => .ok (x, ())

/-- The sample rule of `BUF.ACC`: the old destination sample plus the source sample. -/
def accumulateRule : SampleRule Unit := fun _ x old => .ok (fAdd old x, ())

/-- `BUF.CLR bD` (R128). -/
def execBufClr (bD : Nat) (s : State) : Out :=
  withBlocks [bD] s (processBlock clearRule (fun s' _ => s') bD bD bD () s)

/-- `BUF.CPY bD, bS` (R129). -/
def execBufCpy (bD bS : Nat) (s : State) : Out :=
  withBlocks [bD, bS] s (processBlock copyRule (fun s' _ => s') bD bS bS () s)

/-- `BUF.ACC bD, bS` (R130). -/
def execBufAcc (bD bS : Nat) (s : State) : Out :=
  withBlocks [bD, bS] s (processBlock accumulateRule (fun s' _ => s') bD bS bD () s)

end Sys2Proof.Machine
end

