-- ==== Sys2Proof/Machine/VibratoTremolo.lean ====
section
/-! DEFINITION. The vibrato (R250 to R256) and the tremolo (R260 to R266). -/

namespace Sys2Proof.Machine

/-! ### Vibrato -/

/-- `ramp_VIB`: once for each block, the centre delay moves one sample toward its target (R250). -/
def rampVib (v : Vib) : Vib :=
  if v.intenCur < v.intensity then { v with intenCur := v.intenCur + 1 }
  else if v.intensity < v.intenCur then { v with intenCur := v.intenCur - 1 }
  else v

/-- `k`, the delay in whole samples, kept within the buffer (R251). -/
def vibDelay (c : Config) (v : Vib) (l : F32) : Nat :=
  min (f2u32 (fMul (u2f v.intenCur) (fAdd fOne l))) (c.capVib - 1)

/-- `r`, the read index (R251). -/
def vibReadCursor (c : Config) (v : Vib) (l : F32) : Nat :=
  (v.wcur + c.capVib - vibDelay c v l) % c.capVib

/-- The per-sample rule (R251): the write comes before the read. -/
def stepVib (c : Config) : SampleRule Vib := fun v x l => do
  let written ← memWrite c.capVib v.buf v.wcur x
  let delayed ← memRead c.capVib written (vibReadCursor c v l)
  .ok (fAdd (fMul delayed v.depth) (fMul x (fSub fOne v.depth)),
    { v with buf := written, wcur := (v.wcur + 1) % c.capVib })

/-- `VIB.SETP` to register `reg`; kind P are 0 and 1 (R37, R255). -/
def setVib (c : Config) (v : Vib) (reg : Nat) (imm : Word32) : Option Vib :=
  match reg with
  | 0 => some { v with depth := legalF32 fZero fOne imm }
  | 1 => some { v with intensity := legalInt 0 ((c.capVib - 1) / 2) imm }
  | _ => none

/-- `VIB[i].reg` (R37, R256). -/
def getVib (v : Vib) (reg : Nat) : Option Word32 :=
  match reg with
  | 0 => some v.depth
  | 1 => some (countWord v.intensity)
  | 2 => some (countWord v.intenCur)
  | 3 => some (countWord v.wcur)
  | _ => none

/-- `VIB.PROC i, bD, bS, bM` (R252). -/
def execVibProc (i bD bS bM : Nat) (s : State) : Out :=
  procModUnit s.vib putVib rampVib stepVib i bD bS bM s

/-- `VIB.PROCI i, bX, bM` (R253). -/
def execVibProci (i bX bM : Nat) (s : State) : Out :=
  prociModUnit s.vib putVib rampVib stepVib i bX bM s

/-- `VIB.RESET i` (R254). -/
def execVibReset (i : Nat) (s : State) : Out :=
  updateUnit s.vib putVib (fun v => { v with intenCur := 0, wcur := 0, buf := [] }) i s

/-- `VIB.SETP i, reg, value` (R255). -/
def execVibSetp (i reg : Nat) (imm : Word32) (s : State) : Out :=
  setpUnit s.vib putVib (fun v => setVib s.cfg v reg imm) i s

/-- `VIB.GETP i, reg` (R256). -/
def execVibGetp (i reg : Nat) (s : State) : Out := getpUnit s.vib (fun v => getVib v reg) i s

/-! ### Tremolo -/

/-- `m`, the modulation value: the internal LFO before its advance, or the sample `l` (R260). -/
def trmMod (c : Config) (t : Trm) (l : F32) : F32 :=
  match t.modSrc with
  | .internal => lookup c .sine (t.lfoPhase + t.shift)
  | .external => l

/-- `g`, the gain for the modulation value `m` (R260). -/
def trmGain (depth m : F32) : F32 :=
  fAdd (fSub fOne depth) (fMul depth (fAdd fHalf (fMul fHalf m)))

/-- The per-sample rule (R260): `LFOPHASE` advances in both modes. -/
def stepTrm (c : Config) : SampleRule Trm := fun t x l =>
  .ok (fMul x (trmGain t.depth (trmMod c t l)), { t with lfoPhase := t.lfoPhase + t.rate })

/-- `TRM.SETP` to register `reg`; kind P are 0 to 3 (R38, R264). -/
def setTrm (t : Trm) (reg : Nat) (imm : Word32) : Option Trm :=
  match reg with
  | 0 => some { t with depth := legalF32 fZero fOne imm }
  | 1 => some { t with modSrc := legalModSrc imm }
  | 2 => some { t with rate := imm }
  | 3 => some { t with shift := imm }
  | _ => none

/-- `TRM[i].reg` (R38, R265). -/
def getTrm (t : Trm) (reg : Nat) : Option Word32 :=
  match reg with
  | 0 => some t.depth
  | 1 => some (countWord (modSrcIndex t.modSrc))
  | 2 => some t.rate
  | 3 => some t.shift
  | 4 => some t.lfoPhase
  | _ => none

/-- `TRM.PROC i, bD, bS, bM` (R261): the modulation field is checked in either mode. -/
def execTrmProc (i bD bS bM : Nat) (s : State) : Out :=
  procModUnit s.trm putTrm id stepTrm i bD bS bM s

/-- `TRM.PROCI i, bX, bM` (R262). -/
def execTrmProci (i bX bM : Nat) (s : State) : Out := prociModUnit s.trm putTrm id stepTrm i bX bM s

/-- `TRM.RESET i` (R263). -/
def execTrmReset (i : Nat) (s : State) : Out :=
  updateUnit s.trm putTrm (fun t => { t with lfoPhase := 0#32 }) i s

/-- `TRM.SETP i, reg, value` (R264). -/
def execTrmSetp (i reg : Nat) (imm : Word32) (s : State) : Out :=
  setpUnit s.trm putTrm (fun t => setTrm t reg imm) i s

/-- `TRM.GETP i, reg` (R265). -/
def execTrmGetp (i reg : Nat) (s : State) : Out := getpUnit s.trm (fun t => getTrm t reg) i s

end Sys2Proof.Machine
end

