-- ==== Sys2Proof/Machine/Dispatch.lean ====
section
/-! DEFINITION. The meaning of a command: one arm for each constructor of `Instr`, one direct call of
that command's own definition. -/

namespace Sys2Proof.Machine

def exec (i : Instr) (s : State) : Host.Outcome State Fault Refusal :=
  match i with
  | .sysNop => Sys2Proof.Machine.execSysNop s
  | .sysSetp reg imm => Sys2Proof.Machine.execSysSetp reg imm s
  | .sysGetp reg => Sys2Proof.Machine.execSysGetp reg s
  | .bufClr bD => Sys2Proof.Machine.execBufClr bD s
  | .bufCpy bD bS => Sys2Proof.Machine.execBufCpy bD bS s
  | .bufAcc bD bS => Sys2Proof.Machine.execBufAcc bD bS s
  | .oscProc k bD bS => Sys2Proof.Machine.execOscProc k bD bS s
  | .oscProci k bX => Sys2Proof.Machine.execOscProci k bX s
  | .oscReset k => Sys2Proof.Machine.execOscReset k s
  | .oscSetp k reg imm => Sys2Proof.Machine.execOscSetp k reg imm s
  | .oscGetp k reg => Sys2Proof.Machine.execOscGetp k reg s
  | .fltProc k bD bS => Sys2Proof.Machine.execFltProc k bD bS s
  | .fltProci k bX => Sys2Proof.Machine.execFltProci k bX s
  | .fltReset k => Sys2Proof.Machine.execFltReset k s
  | .fltSetp k reg imm => Sys2Proof.Machine.execFltSetp k reg imm s
  | .fltGetp k reg => Sys2Proof.Machine.execFltGetp k reg s
  | .envProc k bD bS => Sys2Proof.Machine.execEnvProc k bD bS s
  | .envProci k bX => Sys2Proof.Machine.execEnvProci k bX s
  | .envReset k => Sys2Proof.Machine.execEnvReset k s
  | .envSetp k reg imm => Sys2Proof.Machine.execEnvSetp k reg imm s
  | .envGetp k reg => Sys2Proof.Machine.execEnvGetp k reg s
  | .envStart k => Sys2Proof.Machine.execEnvStart k s
  | .envRel k => Sys2Proof.Machine.execEnvRel k s
  | .envStep k => Sys2Proof.Machine.execEnvStep k s
  | .dlyProc k bD bS => Sys2Proof.Machine.execDlyProc k bD bS s
  | .dlyProci k bX => Sys2Proof.Machine.execDlyProci k bX s
  | .dlyReset k => Sys2Proof.Machine.execDlyReset k s
  | .dlySetp k reg imm => Sys2Proof.Machine.execDlySetp k reg imm s
  | .dlyGetp k reg => Sys2Proof.Machine.execDlyGetp k reg s
  | .cmbProc k bD bS => Sys2Proof.Machine.execCmbProc k bD bS s
  | .cmbProci k bX => Sys2Proof.Machine.execCmbProci k bX s
  | .cmbReset k => Sys2Proof.Machine.execCmbReset k s
  | .cmbSetp k reg imm => Sys2Proof.Machine.execCmbSetp k reg imm s
  | .cmbGetp k reg => Sys2Proof.Machine.execCmbGetp k reg s
  | .apfProc k bD bS => Sys2Proof.Machine.execApfProc k bD bS s
  | .apfProci k bX => Sys2Proof.Machine.execApfProci k bX s
  | .apfReset k => Sys2Proof.Machine.execApfReset k s
  | .apfSetp k reg imm => Sys2Proof.Machine.execApfSetp k reg imm s
  | .apfGetp k reg => Sys2Proof.Machine.execApfGetp k reg s
  | .revProc k bD bS => Sys2Proof.Machine.execRevProc k bD bS s
  | .revProci k bX => Sys2Proof.Machine.execRevProci k bX s
  | .revReset k => Sys2Proof.Machine.execRevReset k s
  | .revSetp k reg imm => Sys2Proof.Machine.execRevSetp k reg imm s
  | .revGetp k reg => Sys2Proof.Machine.execRevGetp k reg s
  | .phaProc k bD bS bM => Sys2Proof.Machine.execPhaProc k bD bS bM s
  | .phaProci k bX bM => Sys2Proof.Machine.execPhaProci k bX bM s
  | .phaReset k => Sys2Proof.Machine.execPhaReset k s
  | .phaSetp k reg imm => Sys2Proof.Machine.execPhaSetp k reg imm s
  | .phaGetp k reg => Sys2Proof.Machine.execPhaGetp k reg s
  | .vibProc k bD bS bM => Sys2Proof.Machine.execVibProc k bD bS bM s
  | .vibProci k bX bM => Sys2Proof.Machine.execVibProci k bX bM s
  | .vibReset k => Sys2Proof.Machine.execVibReset k s
  | .vibSetp k reg imm => Sys2Proof.Machine.execVibSetp k reg imm s
  | .vibGetp k reg => Sys2Proof.Machine.execVibGetp k reg s
  | .trmProc k bD bS bM => Sys2Proof.Machine.execTrmProc k bD bS bM s
  | .trmProci k bX bM => Sys2Proof.Machine.execTrmProci k bX bM s
  | .trmReset k => Sys2Proof.Machine.execTrmReset k s
  | .trmSetp k reg imm => Sys2Proof.Machine.execTrmSetp k reg imm s
  | .trmGetp k reg => Sys2Proof.Machine.execTrmGetp k reg s
  | .pshProc k bD bS => Sys2Proof.Machine.execPshProc k bD bS s
  | .pshProci k bX => Sys2Proof.Machine.execPshProci k bX s
  | .pshReset k => Sys2Proof.Machine.execPshReset k s
  | .pshSetp k reg imm => Sys2Proof.Machine.execPshSetp k reg imm s
  | .pshGetp k reg => Sys2Proof.Machine.execPshGetp k reg s

end Sys2Proof.Machine
end

