-- ==== Sys2Proof/Machine/Issue.lean ====
section
/-! DEFINITION. What the core does with each of the host's actions (R80, R103, R283). -/

namespace Sys2Proof.Machine

/-- The host presents the word `cw` (R103): in the fault state it is ignored; otherwise it is decoded
and executed to completion, or refused with IllegalOpcode. -/
def issue (cw : CmdWord) (s : State) : Out :=
  if statusFault s.status then .next s
  else
    match decode cw with
    | none => .next (raise .illegalOpcode { s with cmdPort := cw })
    | some i => exec i { s with cmdPort := cw }

/-- The indices of the sample port are in range (R80, R312). -/
def samplePortInRange (c : Config) (i n : Nat) : Bool :=
  decide (i < c.nBlk) && decide (n < c.blockLen)

/-- One action of the host (R80). The sample port and the three ports work in the fault state too
(R283). -/
def hostStep (a : HostAction) (s : State) : Out :=
  match a with
  | .issue cw => issue cw s
  | .writeSample i n v =>
    if samplePortInRange s.cfg i n then .next (writeSample s i n v) else .refused .samplePortIndex
  | .readSample i n =>
    if samplePortInRange s.cfg i n then .next { s with hostData := (readSample s i n).setWidth 64 }
    else .refused .samplePortIndex
  | .readStatus => .next { s with hostData := s.status.setWidth 64 }
  | .readFaultcw => .next { s with hostData := s.faultcw }
  | .readResp => .next { s with hostData := s.resp.setWidth 64 }
  | .hardReset => .next (hardReset s)

end Sys2Proof.Machine
end

