-- ==== Sys2Proof/Machine/Step.lean ====
section
/-! DEFINITION. One step of the machine: the host's next action, carried out to its end (R76, R80). -/

namespace Sys2Proof.Machine

/-- One step. With nothing asked of it the core is idle and holds its state (R20, R293); a configuration
that breaks a constraint of R9 is refused (U11). -/
def step (s : State) : Host.Outcome State Fault Refusal :=
  if configLegal s.cfg then
    match s.host with
    | [] => .next s
    | a :: rest => hostStep a { s with host := rest }
  else .refused .configuration

/-- The state in which the host presents next the word whose low `nbits` bits are those of `w`: the
command port is where the core takes its next command from (R79), and nothing else is changed. -/
def State.withFetchWord (s : State) (nbits w : Nat) : State :=
  { s with host := .issue (BitVec.ofNat 64 (w % 2 ^ nbits)) :: s.host }

end Sys2Proof.Machine
end

