-- ==== Sys2Proof/Safety.lean ====
section
/-! DEFINITION. What a safe run of the core is, in the terms the statements use: the invariants of R42,
the decode checks of R104 as a table, what a command may write, and what a block operation computes. -/

namespace Sys2Proof.Machine

/-! ### Invariants of the indices (R42) -/

/-- A delay whose cursor, length and buffer are within its capacity (R32, R42). -/
abbrev Dly.Ok (c : Config) (d : Dly) : Prop :=
  d.wcur < c.capDly ∧ d.length ≤ c.capDly ∧ Memory.wf c.capDly d.buf = true

/-- A comb or allpass of capacity `cap`: its limit in [1, cap], its cursor and buffer within the
capacity (R33 to R35, R42). -/
abbrev Line.Ok (cap : Nat) (u : Line) : Prop :=
  1 ≤ u.limit ∧ u.limit ≤ cap ∧ u.cur < cap ∧ Memory.wf cap u.buf = true

/-- The seven filters of a reverb (R35, R42). -/
abbrev Rev.Ok (c : Config) (r : Rev) : Prop :=
  Line.Ok c.capRevCb0 r.cb0 ∧ Line.Ok c.capRevCb1 r.cb1 ∧ Line.Ok c.capRevCb2 r.cb2
    ∧ Line.Ok c.capRevCb3 r.cb3 ∧ Line.Ok c.capRevAp0 r.ap0 ∧ Line.Ok c.capRevAp1 r.ap1
    ∧ Line.Ok c.capRevAp2 r.ap2

/-- A phaser has its `N_PHA_STAGES` stages, each cursor and buffer within the capacity (R36, R42). -/
abbrev Pha.Ok (c : Config) (ph : Pha) : Prop :=
  ph.stages.length = c.nPhaStages
    ∧ ∀ st ∈ ph.stages, st.cur < c.capPha ∧ Memory.wf c.capPha st.buf = true

/-- A vibrato whose delays, cursor and buffer are within bounds (R37, R42). -/
abbrev Vib.Ok (c : Config) (v : Vib) : Prop :=
  v.intensity ≤ (c.capVib - 1) / 2 ∧ v.intenCur ≤ (c.capVib - 1) / 2 ∧ v.wcur < c.capVib
    ∧ Memory.wf c.capVib v.buf = true

/-- A pitch shifter whose write cursor and buffer are within the capacity (R39, R42). -/
abbrev Psh.Ok (c : Config) (u : Psh) : Prop :=
  u.wcur < c.capPsh ∧ Memory.wf c.capPsh u.buf = true

/-- The state has as many instances of each class as the configuration says (R9, R28 to R39). -/
abbrev State.Populated (s : State) : Prop :=
  s.osc.length = s.cfg.nOsc ∧ s.flt.length = s.cfg.nFlt ∧ s.env.length = s.cfg.nEnv
    ∧ s.dly.length = s.cfg.nDly ∧ s.cmb.length = s.cfg.nCmb ∧ s.apf.length = s.cfg.nApf
    ∧ s.rev.length = s.cfg.nRev ∧ s.pha.length = s.cfg.nPha ∧ s.vib.length = s.cfg.nVib
    ∧ s.trm.length = s.cfg.nTrm ∧ s.psh.length = s.cfg.nPsh

/-- The block memory lists words of block registers only, in rising order (R21, R70). -/
abbrev State.BlocksOk (s : State) : Prop :=
  rising 0 s.blocks = true ∧ within (s.cfg.nBlk * s.cfg.blockLen) s.blocks = true

/-- `STATUS` and `FAULTCW` are 0, or `STATUS` shows the fault bit and one of the five causes
(R26, R284). -/
abbrev State.StatusOk (s : State) : Prop :=
  (s.status = 0#32 ∧ s.faultcw = 0#64) ∨ s.status = statusWord .illegalOpcode
    ∨ s.status = statusWord .illegalInstance ∨ s.status = statusWord .illegalBlock
    ∨ s.status = statusWord .illegalAlias ∨ s.status = statusWord .illegalRegister

/-- The state of a core: a legal configuration, every instance present, every index and limit in
range, every buffer in its one form, the ports legal (R9, R26, R42). -/
abbrev State.Wf (s : State) : Prop :=
  configLegal s.cfg = true ∧ s.Populated ∧ s.BlocksOk ∧ s.StatusOk
    ∧ (∀ d ∈ s.dly, Dly.Ok s.cfg d)
    ∧ (∀ u ∈ s.cmb, Line.Ok s.cfg.capCmb u)
    ∧ (∀ u ∈ s.apf, Line.Ok s.cfg.capApf u)
    ∧ (∀ r ∈ s.rev, Rev.Ok s.cfg r)
    ∧ (∀ ph ∈ s.pha, Pha.Ok s.cfg ph)
    ∧ (∀ v ∈ s.vib, Vib.Ok s.cfg v)
    ∧ (∀ u ∈ s.psh, Psh.Ok s.cfg u)

/-! ### Invariants of the values (R27, R42) -/

/-- `lo ≤ x ≤ hi`, so `x` is no NaN. -/
def inRange (lo hi x : F32) : Bool := fLe lo x && fLe x hi

/-- The rates, the sustain level and the control value are in [0, 1] (R31, R42). -/
abbrev Env.InRange (e : Env) : Prop :=
  inRange fZero fOne e.attack = true ∧ inRange fZero fOne e.decay = true
    ∧ inRange fZero fOne e.sustain = true ∧ inRange fZero fOne e.release = true
    ∧ inRange fZero fOne e.control = true

/-- `SPEED` is in [0, 4.0], `MIX` in [0, 1] and `RPOS` in [0, CAP_PSH) (R39, R42). The bound on `SPEED` is
the largest `SPEED_MAX` of R9, because hard reset gives 1.0 in a build whose `SPEED_MAX` is less
(notes/assumptions/12.md). -/
abbrev Psh.InRange (c : Config) (u : Psh) : Prop :=
  inRange fZero fFour u.speed = true ∧ inRange fZero fOne u.mix = true
    ∧ fLe fZero u.rpos = true ∧ fLt u.rpos (u2f c.capPsh) = true

/-- The ranged parameters of the filters, reverbs, phasers, vibratos and tremolos are in their ranges
(R30, R35 to R38). -/
abbrev State.ParamsInRange (s : State) : Prop :=
  (∀ f ∈ s.flt, inRange fZero fOne f.cutoff = true ∧ inRange s.cfg.qMin s.cfg.qMax f.res = true)
    ∧ (∀ r ∈ s.rev, inRange fZero fOne r.time = true)
    ∧ (∀ ph ∈ s.pha, inRange fZero fOne ph.depth = true)
    ∧ (∀ v ∈ s.vib, inRange fZero fOne v.depth = true)
    ∧ (∀ t ∈ s.trm, inRange fZero fOne t.depth = true)

/-- The coefficients of every filter and the limits of every reverb are what the design rules give for
their parameters (R30, R35, R42). -/
abbrev State.Designed (s : State) : Prop :=
  (∀ f ∈ s.flt, redesign s.cfg f = f) ∧ (∀ r ∈ s.rev, setRevTime s.cfg r r.time = r)

/-! ### The decode checks of R104 as a table -/

/-- The cause of the first condition that holds. -/
def firstFailed (checks : List (Bool × Cause)) : Option Cause :=
  match checks with
  | [] => none
  | (failed, cause) :: rest => if failed then some cause else firstFailed rest

/-- Check 1 fails: a class of `n` instances has no instance `i`. -/
def noInstance (n i : Nat) : Bool × Cause := (decide (n ≤ i), .illegalInstance)

/-- Check 2 fails: there is no block register `b`. -/
def noBlock (c : Config) (b : Nat) : Bool × Cause := (decide (c.nBlk ≤ b), .illegalBlock)

/-- Check 3 fails: two fields that must differ name one block register. -/
def sameBlock (b b' : Nat) : Bool × Cause := (decide (b = b'), .illegalAlias)

/-- Check 4 fails: of registers 0 to `n - 1`, none has number `reg`. -/
def noRegister (n reg : Nat) : Bool × Cause := (decide (n ≤ reg), .illegalRegister)

/-- The first check of R104 that the command fails in a core of configuration `c`, checks in the order
instance, block, alias, register (R104, R285). -/
def failedCheck (c : Config) (i : Instr) : Option Cause :=
  match i with
  | .sysNop => none
  | .sysSetp reg _ => firstFailed [noRegister 2 reg]
  | .sysGetp reg => firstFailed [noRegister 5 reg]
  | .bufClr bD => firstFailed [noBlock c bD]
  | .bufCpy bD bS => firstFailed [noBlock c bD, noBlock c bS]
  | .bufAcc bD bS => firstFailed [noBlock c bD, noBlock c bS]
  | .oscProc i bD bS => firstFailed
      [noInstance c.nOsc i, noBlock c bD, noBlock c bS, sameBlock bD bS]
  | .oscProci i bX => firstFailed [noInstance c.nOsc i, noBlock c bX]
  | .oscReset i => firstFailed [noInstance c.nOsc i]
  | .oscSetp i reg _ => firstFailed [noInstance c.nOsc i, noRegister 6 reg]
  | .oscGetp i reg => firstFailed [noInstance c.nOsc i, noRegister 7 reg]
  | .fltProc i bD bS => firstFailed
      [noInstance c.nFlt i, noBlock c bD, noBlock c bS, sameBlock bD bS]
  | .fltProci i bX => firstFailed [noInstance c.nFlt i, noBlock c bX]
  | .fltReset i => firstFailed [noInstance c.nFlt i]
  | .fltSetp i reg _ => firstFailed [noInstance c.nFlt i, noRegister 3 reg]
  | .fltGetp i reg => firstFailed [noInstance c.nFlt i, noRegister 10 reg]
  | .envProc i bD bS => firstFailed
      [noInstance c.nEnv i, noBlock c bD, noBlock c bS, sameBlock bD bS]
  | .envProci i bX => firstFailed [noInstance c.nEnv i, noBlock c bX]
  | .envReset i => firstFailed [noInstance c.nEnv i]
  | .envSetp i reg _ => firstFailed [noInstance c.nEnv i, noRegister 4 reg]
  | .envGetp i reg => firstFailed [noInstance c.nEnv i, noRegister 7 reg]
  | .envStart i => firstFailed [noInstance c.nEnv i]
  | .envRel i => firstFailed [noInstance c.nEnv i]
  | .envStep i => firstFailed [noInstance c.nEnv i]
  | .dlyProc i bD bS => firstFailed
      [noInstance c.nDly i, noBlock c bD, noBlock c bS, sameBlock bD bS]
  | .dlyProci i bX => firstFailed [noInstance c.nDly i, noBlock c bX]
  | .dlyReset i => firstFailed [noInstance c.nDly i]
  | .dlySetp i reg _ => firstFailed [noInstance c.nDly i, noRegister 4 reg]
  | .dlyGetp i reg => firstFailed [noInstance c.nDly i, noRegister 5 reg]
  | .cmbProc i bD bS => firstFailed
      [noInstance c.nCmb i, noBlock c bD, noBlock c bS, sameBlock bD bS]
  | .cmbProci i bX => firstFailed [noInstance c.nCmb i, noBlock c bX]
  | .cmbReset i => firstFailed [noInstance c.nCmb i]
  | .cmbSetp i reg _ => firstFailed [noInstance c.nCmb i, noRegister 2 reg]
  | .cmbGetp i reg => firstFailed [noInstance c.nCmb i, noRegister 3 reg]
  | .apfProc i bD bS => firstFailed
      [noInstance c.nApf i, noBlock c bD, noBlock c bS, sameBlock bD bS]
  | .apfProci i bX => firstFailed [noInstance c.nApf i, noBlock c bX]
  | .apfReset i => firstFailed [noInstance c.nApf i]
  | .apfSetp i reg _ => firstFailed [noInstance c.nApf i, noRegister 2 reg]
  | .apfGetp i reg => firstFailed [noInstance c.nApf i, noRegister 3 reg]
  | .revProc i bD bS => firstFailed
      [noInstance c.nRev i, noBlock c bD, noBlock c bS, sameBlock bD bS]
  | .revProci i bX => firstFailed [noInstance c.nRev i, noBlock c bX]
  | .revReset i => firstFailed [noInstance c.nRev i]
  | .revSetp i reg _ => firstFailed [noInstance c.nRev i, noRegister 9 reg]
  | .revGetp i reg => firstFailed [noInstance c.nRev i, noRegister 23 reg]
  | .phaProc i bD bS bM => firstFailed
      [noInstance c.nPha i, noBlock c bD, noBlock c bS, noBlock c bM, sameBlock bD bS, sameBlock bM bD]
  | .phaProci i bX bM => firstFailed
      [noInstance c.nPha i, noBlock c bX, noBlock c bM, sameBlock bM bX]
  | .phaReset i => firstFailed [noInstance c.nPha i]
  | .phaSetp i reg _ => firstFailed [noInstance c.nPha i, noRegister 2 reg]
  | .phaGetp i reg => firstFailed [noInstance c.nPha i, noRegister (2 + c.nPhaStages) reg]
  | .vibProc i bD bS bM => firstFailed
      [noInstance c.nVib i, noBlock c bD, noBlock c bS, noBlock c bM, sameBlock bD bS, sameBlock bM bD]
  | .vibProci i bX bM => firstFailed
      [noInstance c.nVib i, noBlock c bX, noBlock c bM, sameBlock bM bX]
  | .vibReset i => firstFailed [noInstance c.nVib i]
  | .vibSetp i reg _ => firstFailed [noInstance c.nVib i, noRegister 2 reg]
  | .vibGetp i reg => firstFailed [noInstance c.nVib i, noRegister 4 reg]
  | .trmProc i bD bS bM => firstFailed
      [noInstance c.nTrm i, noBlock c bD, noBlock c bS, noBlock c bM, sameBlock bD bS, sameBlock bM bD]
  | .trmProci i bX bM => firstFailed
      [noInstance c.nTrm i, noBlock c bX, noBlock c bM, sameBlock bM bX]
  | .trmReset i => firstFailed [noInstance c.nTrm i]
  | .trmSetp i reg _ => firstFailed [noInstance c.nTrm i, noRegister 4 reg]
  | .trmGetp i reg => firstFailed [noInstance c.nTrm i, noRegister 5 reg]
  | .pshProc i bD bS => firstFailed
      [noInstance c.nPsh i, noBlock c bD, noBlock c bS, sameBlock bD bS]
  | .pshProci i bX => firstFailed [noInstance c.nPsh i, noBlock c bX]
  | .pshReset i => firstFailed [noInstance c.nPsh i]
  | .pshSetp i reg _ => firstFailed [noInstance c.nPsh i, noRegister 3 reg]
  | .pshGetp i reg => firstFailed [noInstance c.nPsh i, noRegister 5 reg]

/-! ### What a command may write -/

/-- The one instance whose registers and buffers a command may write (R40, R301). -/
def targetUnit (i : Instr) : Option (UnitClass × Nat) :=
  match i with
  | .sysNop => none
  | .sysSetp _ _ => none
  | .sysGetp _ => none
  | .bufClr _ => none
  | .bufCpy _ _ => none
  | .bufAcc _ _ => none
  | .oscProc i _ _ => some (.osc, i)
  | .oscProci i _ => some (.osc, i)
  | .oscReset i => some (.osc, i)
  | .oscSetp i _ _ => some (.osc, i)
  | .oscGetp i _ => some (.osc, i)
  | .fltProc i _ _ => some (.flt, i)
  | .fltProci i _ => some (.flt, i)
  | .fltReset i => some (.flt, i)
  | .fltSetp i _ _ => some (.flt, i)
  | .fltGetp i _ => some (.flt, i)
  | .envProc i _ _ => some (.env, i)
  | .envProci i _ => some (.env, i)
  | .envReset i => some (.env, i)
  | .envSetp i _ _ => some (.env, i)
  | .envGetp i _ => some (.env, i)
  | .envStart i => some (.env, i)
  | .envRel i => some (.env, i)
  | .envStep i => some (.env, i)
  | .dlyProc i _ _ => some (.dly, i)
  | .dlyProci i _ => some (.dly, i)
  | .dlyReset i => some (.dly, i)
  | .dlySetp i _ _ => some (.dly, i)
  | .dlyGetp i _ => some (.dly, i)
  | .cmbProc i _ _ => some (.cmb, i)
  | .cmbProci i _ => some (.cmb, i)
  | .cmbReset i => some (.cmb, i)
  | .cmbSetp i _ _ => some (.cmb, i)
  | .cmbGetp i _ => some (.cmb, i)
  | .apfProc i _ _ => some (.apf, i)
  | .apfProci i _ => some (.apf, i)
  | .apfReset i => some (.apf, i)
  | .apfSetp i _ _ => some (.apf, i)
  | .apfGetp i _ => some (.apf, i)
  | .revProc i _ _ => some (.rev, i)
  | .revProci i _ => some (.rev, i)
  | .revReset i => some (.rev, i)
  | .revSetp i _ _ => some (.rev, i)
  | .revGetp i _ => some (.rev, i)
  | .phaProc i _ _ _ => some (.pha, i)
  | .phaProci i _ _ => some (.pha, i)
  | .phaReset i => some (.pha, i)
  | .phaSetp i _ _ => some (.pha, i)
  | .phaGetp i _ => some (.pha, i)
  | .vibProc i _ _ _ => some (.vib, i)
  | .vibProci i _ _ => some (.vib, i)
  | .vibReset i => some (.vib, i)
  | .vibSetp i _ _ => some (.vib, i)
  | .vibGetp i _ => some (.vib, i)
  | .trmProc i _ _ _ => some (.trm, i)
  | .trmProci i _ _ => some (.trm, i)
  | .trmReset i => some (.trm, i)
  | .trmSetp i _ _ => some (.trm, i)
  | .trmGetp i _ => some (.trm, i)
  | .pshProc i _ _ => some (.psh, i)
  | .pshProci i _ => some (.psh, i)
  | .pshReset i => some (.psh, i)
  | .pshSetp i _ _ => some (.psh, i)
  | .pshGetp i _ => some (.psh, i)

/-- The one block register a command may write (R23). -/
def targetBlock (i : Instr) : Option Nat :=
  match i with
  | .sysNop => none
  | .sysSetp _ _ => none
  | .sysGetp _ => none
  | .bufClr bD => some bD
  | .bufCpy bD _ => some bD
  | .bufAcc bD _ => some bD
  | .oscProc _ bD _ => some bD
  | .oscProci _ bX => some bX
  | .oscReset _ => none
  | .oscSetp _ _ _ => none
  | .oscGetp _ _ => none
  | .fltProc _ bD _ => some bD
  | .fltProci _ bX => some bX
  | .fltReset _ => none
  | .fltSetp _ _ _ => none
  | .fltGetp _ _ => none
  | .envProc _ bD _ => some bD
  | .envProci _ bX => some bX
  | .envReset _ => none
  | .envSetp _ _ _ => none
  | .envGetp _ _ => none
  | .envStart _ => none
  | .envRel _ => none
  | .envStep _ => none
  | .dlyProc _ bD _ => some bD
  | .dlyProci _ bX => some bX
  | .dlyReset _ => none
  | .dlySetp _ _ _ => none
  | .dlyGetp _ _ => none
  | .cmbProc _ bD _ => some bD
  | .cmbProci _ bX => some bX
  | .cmbReset _ => none
  | .cmbSetp _ _ _ => none
  | .cmbGetp _ _ => none
  | .apfProc _ bD _ => some bD
  | .apfProci _ bX => some bX
  | .apfReset _ => none
  | .apfSetp _ _ _ => none
  | .apfGetp _ _ => none
  | .revProc _ bD _ => some bD
  | .revProci _ bX => some bX
  | .revReset _ => none
  | .revSetp _ _ _ => none
  | .revGetp _ _ => none
  | .phaProc _ bD _ _ => some bD
  | .phaProci _ bX _ => some bX
  | .phaReset _ => none
  | .phaSetp _ _ _ => none
  | .phaGetp _ _ => none
  | .vibProc _ bD _ _ => some bD
  | .vibProci _ bX _ => some bX
  | .vibReset _ => none
  | .vibSetp _ _ _ => none
  | .vibGetp _ _ => none
  | .trmProc _ bD _ _ => some bD
  | .trmProci _ bX _ => some bX
  | .trmReset _ => none
  | .trmSetp _ _ _ => none
  | .trmGetp _ _ => none
  | .pshProc _ bD _ => some bD
  | .pshProci _ bX => some bX
  | .pshReset _ => none
  | .pshSetp _ _ _ => none
  | .pshGetp _ _ => none

/-- The commands that may write `RESP`: `SYS.GETP`, every `<CLS>.GETP` and `ENV.STEP` (R26). -/
def writesResp (i : Instr) : Bool :=
  match i with
  | .sysNop => false
  | .sysSetp _ _ => false
  | .sysGetp _ => true
  | .bufClr _ => false
  | .bufCpy _ _ => false
  | .bufAcc _ _ => false
  | .oscProc _ _ _ => false
  | .oscProci _ _ => false
  | .oscReset _ => false
  | .oscSetp _ _ _ => false
  | .oscGetp _ _ => true
  | .fltProc _ _ _ => false
  | .fltProci _ _ => false
  | .fltReset _ => false
  | .fltSetp _ _ _ => false
  | .fltGetp _ _ => true
  | .envProc _ _ _ => false
  | .envProci _ _ => false
  | .envReset _ => false
  | .envSetp _ _ _ => false
  | .envGetp _ _ => true
  | .envStart _ => false
  | .envRel _ => false
  | .envStep _ => true
  | .dlyProc _ _ _ => false
  | .dlyProci _ _ => false
  | .dlyReset _ => false
  | .dlySetp _ _ _ => false
  | .dlyGetp _ _ => true
  | .cmbProc _ _ _ => false
  | .cmbProci _ _ => false
  | .cmbReset _ => false
  | .cmbSetp _ _ _ => false
  | .cmbGetp _ _ => true
  | .apfProc _ _ _ => false
  | .apfProci _ _ => false
  | .apfReset _ => false
  | .apfSetp _ _ _ => false
  | .apfGetp _ _ => true
  | .revProc _ _ _ => false
  | .revProci _ _ => false
  | .revReset _ => false
  | .revSetp _ _ _ => false
  | .revGetp _ _ => true
  | .phaProc _ _ _ _ => false
  | .phaProci _ _ _ => false
  | .phaReset _ => false
  | .phaSetp _ _ _ => false
  | .phaGetp _ _ => true
  | .vibProc _ _ _ _ => false
  | .vibProci _ _ _ => false
  | .vibReset _ => false
  | .vibSetp _ _ _ => false
  | .vibGetp _ _ => true
  | .trmProc _ _ _ _ => false
  | .trmProci _ _ _ => false
  | .trmReset _ => false
  | .trmSetp _ _ _ => false
  | .trmGetp _ _ => true
  | .pshProc _ _ _ => false
  | .pshProci _ _ => false
  | .pshReset _ => false
  | .pshSetp _ _ _ => false
  | .pshGetp _ _ => true

/-- Word `a` of the block memory belongs to block register `b`. -/
def inBlock (c : Config) (b a : Nat) : Prop := ∃ n, n < c.blockLen ∧ a = blockIndex c b n

/-- Every word of the block memory outside block register `b` is as it was. -/
def OnlyBlock (b : Nat) (s t : State) : Prop :=
  ∀ a, ¬ inBlock s.cfg b a → wordAt t.blocks a = wordAt s.blocks a

/-! ### What a block operation computes (R15, R120) -/

/-- The sample rule run over one block: `us n` is the unit that sample `n` sees, and sample `n` of the
destination is what the rule gives for sample `n` of the source and of the modulation block as they
were before the command. -/
def Processed {U : Type} (rule : SampleRule U) (bD bS bM : Nat) (s t : State) (u u' : U) : Prop :=
  ∃ us : Nat → U, us 0 = u ∧ us s.cfg.blockLen = u'
    ∧ ∀ n, n < s.cfg.blockLen →
        rule (us n) (readSample s bS n) (readSample s bM n) = .ok (readSample t bD n, us (n + 1))

/-- What a block operation answers: a next state in which only the unit and the destination block
differ, the unit and each sample of the block being what the sample rule gives. -/
def BlockResult {U : Type} (rule : SampleRule U) (put : State → U → State) (bD bS bM : Nat) (u : U)
    (s : State) (out : Out) : Prop :=
  ∃ t u', out = .next t ∧ t = { put s u' with blocks := t.blocks } ∧ Processed rule bD bS bM s t u u'
    ∧ OnlyBlock bD s t

/-! ### Rounding to nearest (R12) -/

/-- How far the magnitude pattern `m` is from `num / den` units of 2^-149, times `den`. -/
def magError (num den m : Nat) : Nat := ((magUnits m * den : Int) - num).natAbs

/-- The magnitude pattern `m` is the one nearest to `num / den` units of 2^-149, an even pattern where
two are equally near. The pattern of infinity stands at 2^128, where the finite patterns end. -/
def NearestMag (num den m : Nat) : Prop :=
  m ≤ fInfMag ∧ ∀ m', m' ≤ fInfMag →
    magError num den m ≤ magError num den m'
      ∧ (magError num den m = magError num den m' → m' = m ∨ m % 2 = 0)

/-! ### The same command in its two forms (R81) -/

/-- The classes whose `PROC` and `PROCI` name a modulation block (R93, R94). -/
def usesModulation (k : UnitClass) : Bool :=
  match k with
  | .osc => false
  | .flt => false
  | .env => false
  | .dly => false
  | .cmb => false
  | .apf => false
  | .rev => false
  | .pha => true
  | .vib => true
  | .trm => true
  | .psh => false

/-- `<CLS>.PROC i, bD, bS [, bM]` of a class; the modulation block is used by three classes only. -/
def procOf (k : UnitClass) (i bD bS bM : Nat) : Instr :=
  match k with
  | .osc => .oscProc i bD bS
  | .flt => .fltProc i bD bS
  | .env => .envProc i bD bS
  | .dly => .dlyProc i bD bS
  | .cmb => .cmbProc i bD bS
  | .apf => .apfProc i bD bS
  | .rev => .revProc i bD bS
  | .pha => .phaProc i bD bS bM
  | .vib => .vibProc i bD bS bM
  | .trm => .trmProc i bD bS bM
  | .psh => .pshProc i bD bS

/-- `<CLS>.PROCI i, bX [, bM]` of a class. -/
def prociOf (k : UnitClass) (i bX bM : Nat) : Instr :=
  match k with
  | .osc => .oscProci i bX
  | .flt => .fltProci i bX
  | .env => .envProci i bX
  | .dly => .dlyProci i bX
  | .cmb => .cmbProci i bX
  | .apf => .apfProci i bX
  | .rev => .revProci i bX
  | .pha => .phaProci i bX bM
  | .vib => .vibProci i bX bM
  | .trm => .trmProci i bX bM
  | .psh => .pshProci i bX

/-- The number of instances of a class (R9). -/
def instances (c : Config) (k : UnitClass) : Nat :=
  match k with
  | .osc => c.nOsc
  | .flt => c.nFlt
  | .env => c.nEnv
  | .dly => c.nDly
  | .cmb => c.nCmb
  | .apf => c.nApf
  | .rev => c.nRev
  | .pha => c.nPha
  | .vib => c.nVib
  | .trm => c.nTrm
  | .psh => c.nPsh

/-- The registers and buffers of every unit, to compare two states by. -/
structure UnitState where
  osc : List Osc
  flt : List Flt
  env : List Env
  dly : List Dly
  cmb : List Line
  apf : List Line
  rev : List Rev
  pha : List Pha
  vib : List Vib
  trm : List Trm
  psh : List Psh
deriving DecidableEq, Repr

/-- The units of a state. -/
def State.units (s : State) : UnitState where
  osc := s.osc
  flt := s.flt
  env := s.env
  dly := s.dly
  cmb := s.cmb
  apf := s.apf
  rev := s.rev
  pha := s.pha
  vib := s.vib
  trm := s.trm
  psh := s.psh

end Sys2Proof.Machine
end

