-- ==== Sys2Proof/Certificates/Slice0/Obligations.lean ====
section
/-! DEFINITION. The statements for the provers. A statement that rests on a choice of the model names
the log entry. `notes/assumptions/3.md` (free NaN patterns) concerns every statement that speaks of an
arithmetic operation: each holds whatever those patterns are. -/

open Sys2Proof Sys2Proof.Machine

/-! ### Encoding (R90 to R102) -/

/-- Every operand of a well-formed command comes back from its encoding, at every value its field
admits (R91, R93 to R99). -/
def Obligations.DecodeOfEncode : Prop :=
  ∀ i : Instr, WellFormed i = true → decode (encode i) = some i

/-- A word has one meaning: the command it decodes to has that word as its only encoding (R90, R101). -/
def Obligations.EncodeOfDecode : Prop :=
  ∀ (cw : CmdWord) (i : Instr), decode cw = some i → WellFormed i = true ∧ encode i = cw

/-- R100: 64 rows with disjoint masks; a word encodes the command of a row exactly when it matches the
row's mask and pattern. -/
def Obligations.DecodeFollowsOpcodeTable : Prop :=
  opcodeTable.length = 64
    ∧ (∀ (r r' : OpRow) (cw : CmdWord), r ∈ opcodeTable → r' ∈ opcodeTable → r.covers cw = true →
        r'.covers cw = true → r = r')
    ∧ ∀ r ∈ opcodeTable, ∀ cw : CmdWord,
        (r.covers cw = true ↔ ∃ i, decode cw = some i ∧ mnemonic i = r.mnemonic)

/-- R101, R281: a word that matches no row is illegal and raises IllegalOpcode; a word of class 0xD to
0xF matches none. That the word stands in `cmdPort` is the model's choice (notes/assumptions/4.md), and
that the fault is a next state is read from the spec (notes/assumptions/7.md). -/
def Obligations.UnmatchedWordsRaiseIllegalOpcode : Prop :=
  (∀ (cw : CmdWord) (s : State), statusFault s.status = false →
      (∀ r ∈ opcodeTable, r.covers cw = false) →
      issue cw s = .next { s with cmdPort := cw, status := 0x11#32, faultcw := cw })
    ∧ ∀ cw : CmdWord, 0xD ≤ cwField cw 60 4 → ∀ r ∈ opcodeTable, r.covers cw = false

/-- R102: the all-zero word is `SYS.NOP`; the all-ones word, of class 0xF, is illegal. -/
def Obligations.AllZeroAndAllOnesWords : Prop :=
  decode 0x0000000000000000#64 = some .sysNop ∧ cwField 0xFFFFFFFFFFFFFFFF#64 60 4 = 0xF
    ∧ decode 0xFFFFFFFFFFFFFFFF#64 = none

/-- The words that the spec writes out for its examples decode to the commands they stand for, one or
two for each class. -/
def Obligations.WorkedEncodingsDecode : Prop :=
  decode 0x030001003FC00000#64 = some (.sysSetp 1 0x3FC00000#32)
    ∧ decode 0x0400020000000000#64 = some (.sysGetp 2)
    ∧ decode 0x1100020000000000#64 = some (.bufCpy 2 0)
    ∧ decode 0x2000010000000000#64 = some (.oscProc 0 1 0)
    ∧ decode 0x330000003F000000#64 = some (.fltSetp 0 0 0x3F000000#32)
    ∧ decode 0x4501000000000000#64 = some (.envStart 1)
    ∧ decode 0x53010000FFFFFFFF#64 = some (.dlySetp 1 0 0xFFFFFFFF#32)
    ∧ decode 0x6200000000000000#64 = some (.cmbReset 0)
    ∧ decode 0x7201000000000000#64 = some (.apfReset 1)
    ∧ decode 0x8400090000000000#64 = some (.revGetp 0 9)
    ∧ decode 0x9101000000000003#64 = some (.phaProci 1 0 3)
    ∧ decode 0xA000010000000002#64 = some (.vibProc 0 1 0 2)
    ∧ decode 0xB301030080000000#64 = some (.trmSetp 1 3 0x80000000#32)
    ∧ decode 0xC100000000000000#64 = some (.pshProci 0 0)

/-! ### One step (R76, R80, R103) -/

/-- R103: when the host issues a word and no fault is set, the step takes the word to the command port
and runs the command the word encodes, or refuses a word that encodes none. -/
def Obligations.StepRunsTheDecodedCommand : Prop :=
  ∀ (s : State) (cw : CmdWord) (rest : List HostAction), configLegal s.cfg = true →
    s.host = .issue cw :: rest → statusFault s.status = false →
    (∀ i, decode cw = some i → step s = exec i { s with host := rest, cmdPort := cw })
      ∧ (decode cw = none →
          step s = .next
            { s with host := rest, cmdPort := cw, status := statusWord .illegalOpcode, faultcw := cw })

/-- R283: in the fault state a command is ignored, and the sample port and the three ports still work.
That the host's actions are a list which loses its head, and that what the host reads stands in
`hostData`, is the model's choice (notes/assumptions/4.md). -/
def Obligations.FaultStateIgnoresCommands : Prop :=
  ∀ (s : State) (rest : List HostAction), configLegal s.cfg = true → statusFault s.status = true →
    (∀ cw, s.host = .issue cw :: rest → step s = .next { s with host := rest })
      ∧ (∀ i n, i < s.cfg.nBlk → n < s.cfg.blockLen → s.host = .readSample i n :: rest →
          step s = .next { s with host := rest, hostData := (readSample s i n).setWidth 64 })
      ∧ (∀ i n v, i < s.cfg.nBlk → n < s.cfg.blockLen → s.host = .writeSample i n v :: rest →
          step s = .next (writeSample { s with host := rest } i n v))
      ∧ (s.host = .readStatus :: rest →
          step s = .next { s with host := rest, hostData := s.status.setWidth 64 })
      ∧ (s.host = .readFaultcw :: rest → step s = .next { s with host := rest, hostData := s.faultcw })
      ∧ (s.host = .readResp :: rest →
          step s = .next { s with host := rest, hostData := s.resp.setWidth 64 })

/-- What each action of the host other than a command and a hard reset does (R80); a core of which the
host asks nothing holds its state (R293). That a port index out of range is refused is R312, and a
configuration that breaks a constraint U11; that what the host has read stands in `hostData` is the
model's form (notes/assumptions/4.md, 8.md). -/
def Obligations.HostPortActions : Prop :=
  (∀ s : State, configLegal s.cfg = false → step s = .refused .configuration)
    ∧ (∀ s : State, configLegal s.cfg = true → s.host = [] → step s = .next s)
    ∧ ∀ (s : State) (rest : List HostAction), configLegal s.cfg = true →
    (∀ i n v, s.host = .writeSample i n v :: rest →
        (i < s.cfg.nBlk → n < s.cfg.blockLen →
          ∃ t, step s = .next t ∧ t = { s with host := rest, blocks := t.blocks }
            ∧ readSample t i n = v
            ∧ ∀ a, a ≠ blockIndex s.cfg i n → wordAt t.blocks a = wordAt s.blocks a)
          ∧ (s.cfg.nBlk ≤ i ∨ s.cfg.blockLen ≤ n → step s = .refused .samplePortIndex))
      ∧ (∀ i n, s.host = .readSample i n :: rest →
          (i < s.cfg.nBlk → n < s.cfg.blockLen →
            step s = .next { s with host := rest, hostData := (readSample s i n).setWidth 64 })
            ∧ (s.cfg.nBlk ≤ i ∨ s.cfg.blockLen ≤ n → step s = .refused .samplePortIndex))
      ∧ (s.host = .readStatus :: rest →
          step s = .next { s with host := rest, hostData := s.status.setWidth 64 })
      ∧ (s.host = .readFaultcw :: rest → step s = .next { s with host := rest, hostData := s.faultcw })
      ∧ (s.host = .readResp :: rest →
          step s = .next { s with host := rest, hostData := s.resp.setWidth 64 })

/-! ### Hard reset (R300) -/

/-- R300: hard reset gives every register the value in its hard-reset column, every word of every
private buffer +0.0, the three ports 0. The block registers are not spoken of: they are unspecified. -/
def Obligations.HardResetGivesTheResetColumns : Prop :=
  ∀ (s : State) (rest : List HostAction), configLegal s.cfg = true → s.host = .hardReset :: rest →
    ∃ t, step s = .next t ∧ t.cfg = s.cfg ∧ t.host = rest
      ∧ t.status = 0#32 ∧ t.faultcw = 0#64 ∧ t.resp = 0#32
      ∧ t.octmul = 0x3F800000#32 ∧ t.gpm = 0x3F800000#32
      ∧ t.Populated
      ∧ (∀ o ∈ t.osc, o = ⟨.silence, 0#32, 0x3F800000#32, 0x3F000000#32, .silence, 0#32, 0#32⟩)
      ∧ (∀ f ∈ t.flt, f = ⟨0x3F800000#32, s.cfg.qMin, .lowPass, 0x3F800000#32, 0x40000000#32,
          0x3F800000#32, 0x40000000#32, 0x3F800000#32, 0#32, 0#32⟩)
      ∧ (∀ e ∈ t.env, e = ⟨0x3F800000#32, 0x3F800000#32, 0x3F800000#32, 0x3F800000#32, .release, 0#32,
          false⟩)
      ∧ (∀ d ∈ t.dly, d.length = 0 ∧ d.inLevel = 0x3F800000#32 ∧ d.outLevel = 0#32
          ∧ d.feedback = 0#32 ∧ d.wcur = 0 ∧ ∀ a, wordOrZero d.buf a = 0#32)
      ∧ (∀ u ∈ t.cmb, u.limit = s.cfg.capCmb ∧ u.gain = 0#32 ∧ u.cur = 0
          ∧ ∀ a, wordOrZero u.buf a = 0#32)
      ∧ (∀ u ∈ t.apf, u.limit = s.cfg.capApf ∧ u.gain = 0#32 ∧ u.cur = 0
          ∧ ∀ a, wordOrZero u.buf a = 0#32)
      ∧ (∀ r ∈ t.rev, r.level = 0#32 ∧ r.time = 0x3F800000#32
          ∧ r.cb0 = ⟨s.cfg.capRevCb0, 0x3F4E147B#32, 0, []⟩
          ∧ r.cb1 = ⟨s.cfg.capRevCb1, 0x3F53B646#32, 0, []⟩
          ∧ r.cb2 = ⟨s.cfg.capRevCb2, 0x3F4872B0#32, 0, []⟩
          ∧ r.cb3 = ⟨s.cfg.capRevCb3, 0x3F439581#32, 0, []⟩
          ∧ r.ap0 = ⟨s.cfg.capRevAp0, 0x3F333333#32, 0, []⟩
          ∧ r.ap1 = ⟨s.cfg.capRevAp1, 0x3F333333#32, 0, []⟩
          ∧ r.ap2 = ⟨s.cfg.capRevAp2, 0x3F333333#32, 0, []⟩)
      ∧ (∀ ph ∈ t.pha, ph.depth = 0#32 ∧ ph.gain = 0#32 ∧ ph.stages.length = s.cfg.nPhaStages
          ∧ ∀ st ∈ ph.stages, st.cur = 0 ∧ ∀ a, wordOrZero st.buf a = 0#32)
      ∧ (∀ v ∈ t.vib, v.depth = 0#32 ∧ v.intensity = 0 ∧ v.intenCur = 0 ∧ v.wcur = 0
          ∧ ∀ a, wordOrZero v.buf a = 0#32)
      ∧ (∀ m ∈ t.trm, m = ⟨0#32, .internal, 0#32, 0#32, 0#32⟩)
      ∧ (∀ p ∈ t.psh, p.speed = 0x3F800000#32 ∧ p.feedback = 0#32 ∧ p.mix = 0#32 ∧ p.wcur = 0
          ∧ p.rpos = 0#32 ∧ ∀ a, wordOrZero p.buf a = 0#32)

/-- The machine right after reset meets every invariant stated below. That it has the configuration `T`
is the model's choice (notes/assumptions/1.md). -/
def Obligations.ResetStateMeetsTheInvariants : Prop :=
  State.reset.Wf ∧ State.reset.ParamsInRange ∧ State.reset.Designed
    ∧ (∀ e ∈ State.reset.env, Env.InRange e)
    ∧ (∀ u ∈ State.reset.psh, Psh.InRange State.reset.cfg u)
    ∧ State.reset.cfg = Config.test ∧ State.reset.host = []

/-! ### Faults (R103, R104, R280 to R288) -/

/-- The fault writes the fault bit, the cause and the refused word, and nothing else (R281); `STATUS` is
laid out as R26 says and the cause codes are those of R284. That the refused word is taken from
`cmdPort` is the model's reading (notes/assumptions/7.md) of a field of its own
(notes/assumptions/4.md). -/
def Obligations.RaiseWritesStatusAndFaultcw : Prop :=
  ∀ (c : Cause) (s : State),
    raise c s = { s with status := BitVec.ofNat 32 (16 * causeCode c + 1), faultcw := s.cmdPort }
      ∧ statusFault (raise c s).status = true ∧ statusCause (raise c s).status = causeCode c
      ∧ (causeCode .illegalOpcode = 1 ∧ causeCode .illegalInstance = 2 ∧ causeCode .illegalBlock = 3
          ∧ causeCode .illegalAlias = 4 ∧ causeCode .illegalRegister = 5)

/-- Every command of the set, in every state that keeps the index invariants: if it fails a decode
check it takes the fault of the first check it fails and changes nothing else (R103, R104, R285); if it
fails none it completes, with `STATUS` and `FAULTCW` as they were (R280). -/
def Obligations.ChecksDecideFaultOrCompletion : Prop :=
  ∀ (i : Instr) (s : State), s.Wf →
    (∀ c, failedCheck s.cfg i = some c →
        exec i s = .next { s with status := statusWord c, faultcw := s.cmdPort })
      ∧ (failedCheck s.cfg i = none →
          ∃ t, exec i s = .next t ∧ t.status = s.status ∧ t.faultcw = s.faultcw)

/-- R282: over any number of steps without a hard reset the fault, its cause and its word stay, and so
do the units, the two global multipliers and `RESP`. -/
def Obligations.FaultIsStickyUntilHardReset : Prop :=
  ∀ (k : Nat) (s t : State), statusFault s.status = true → HostAction.hardReset ∉ s.host →
    Sys2Proof.core.run k s = .next t →
    t.status = s.status ∧ t.faultcw = s.faultcw ∧ t.resp = s.resp ∧ t.units = s.units
      ∧ t.octmul = s.octmul ∧ t.gpm = s.gpm

/-! ### Ownership (R40, R301) -/

/-- What a command may write: the one instance it names, the one block register it names as
destination, `RESP` if it is a reading command, `STATUS` and `FAULTCW` only by raising a fault (R26, R281),
which a command that passes every check of R104 does not; the global multipliers if it is `SYS.SETP`;
the configuration, the command port and the host's side never. -/
def Obligations.CommandsWriteOnlyTheirOwn : Prop :=
  ∀ (i : Instr) (s t : State), exec i s = .next t →
    t.cfg = s.cfg ∧ t.host = s.host ∧ t.cmdPort = s.cmdPort ∧ t.hostData = s.hostData
      ∧ t.resets = s.resets
      ∧ (writesResp i = false → t.resp = s.resp)
      ∧ ((t.status = s.status ∧ t.faultcw = s.faultcw) ∨ ∃ c, t = raise c s)
      ∧ (s.Wf → failedCheck s.cfg i = none → t.status = s.status ∧ t.faultcw = s.faultcw)
      ∧ ((∀ reg v, i ≠ .sysSetp reg v) → t.octmul = s.octmul ∧ t.gpm = s.gpm)
      ∧ (∀ a, (∀ b, targetBlock i = some b → ¬ inBlock s.cfg b a) →
          wordAt t.blocks a = wordAt s.blocks a)
      ∧ (∀ j, targetUnit i ≠ some (.osc, j) → t.osc[j]? = s.osc[j]?)
      ∧ (∀ j, targetUnit i ≠ some (.flt, j) → t.flt[j]? = s.flt[j]?)
      ∧ (∀ j, targetUnit i ≠ some (.env, j) → t.env[j]? = s.env[j]?)
      ∧ (∀ j, targetUnit i ≠ some (.dly, j) → t.dly[j]? = s.dly[j]?)
      ∧ (∀ j, targetUnit i ≠ some (.cmb, j) → t.cmb[j]? = s.cmb[j]?)
      ∧ (∀ j, targetUnit i ≠ some (.apf, j) → t.apf[j]? = s.apf[j]?)
      ∧ (∀ j, targetUnit i ≠ some (.rev, j) → t.rev[j]? = s.rev[j]?)
      ∧ (∀ j, targetUnit i ≠ some (.pha, j) → t.pha[j]? = s.pha[j]?)
      ∧ (∀ j, targetUnit i ≠ some (.vib, j) → t.vib[j]? = s.vib[j]?)
      ∧ (∀ j, targetUnit i ≠ some (.trm, j) → t.trm[j]? = s.trm[j]?)
      ∧ (∀ j, targetUnit i ≠ some (.psh, j) → t.psh[j]? = s.psh[j]?)

/-! ### Invariants that every step keeps (R42) -/

/-- Every step keeps the index invariants: every cursor below its capacity, every limit in [1,
capacity], `INTENCUR` within its bound, every buffer in its one form, the ports legal; and the only way
for a step to stop is the host's sample port out of range, so no buffer index is ever out of range. -/
def Obligations.IndexInvariantsAreKept : Prop :=
  ∀ s : State, s.Wf →
    (∀ t, step s = .next t → t.Wf) ∧ (∀ r, step s = .refused r → r = .samplePortIndex)

/-- Every step keeps the ranges of the parameters that `SETP` clamps (R27, R30, R35 to R38). -/
def Obligations.ParameterRangesAreKept : Prop :=
  ∀ s t : State, s.ParamsInRange → step s = .next t → t.ParamsInRange

/-- Every step keeps the rates, the sustain level and the control value of every envelope in [0, 1] and
no NaN (R42). -/
def Obligations.EnvelopeControlStaysInRange : Prop :=
  ∀ s t : State, (∀ e ∈ s.env, Env.InRange e) → step s = .next t → ∀ e ∈ t.env, Env.InRange e

/-- Every step keeps the read position of every pitch shifter in [0, CAP_PSH) and no NaN (R39, R42). -/
def Obligations.ReadPositionStaysInRange : Prop :=
  ∀ s t : State, (∀ u ∈ s.psh, Psh.InRange s.cfg u) → step s = .next t →
    ∀ u ∈ t.psh, Psh.InRange t.cfg u

/-- Every step keeps the coefficients of every filter, and the limits of every reverb, what the design
rules give for the current parameters (R42, R30, R35). -/
def Obligations.CoefficientsMatchParameters : Prop :=
  ∀ s t : State, s.Designed → step s = .next t → t.Designed

/-! ### Arithmetic (R12, R13) -/

/-- The four operations and the comparisons on every pair of operands (R12, IEEE 754). On finite
operands: the nearest binary32, ties to even, with the sign of the exact result; an exact zero sum is
+0.0 unless both operands are negative. On the others: a NaN operand, and 0 * inf, 0/0, inf/inf and a sum
of opposite infinities, give a NaN, of which nothing more is said (notes/assumptions/3.md); any other
operation on an infinity, and a division of a nonzero number by zero, gives the infinity or the zero of
the right sign. A comparison with a NaN is false. -/
def Obligations.ArithmeticRoundsToNearest : Prop :=
  (∀ a b : F32, fIsFinite a = true → fIsFinite b = true →
    (∃ m, NearestMag (fUnits a * fUnits b) (2 ^ 149) m ∧ fMul a b = fPack (fSign a != fSign b) m)
      ∧ (fUnits b ≠ 0 → ∃ m, NearestMag (fUnits a * 2 ^ 149) (fUnits b) m
          ∧ fDiv a b = fPack (fSign a != fSign b) m)
      ∧ (fInt a + fInt b ≠ 0 → ∃ m, NearestMag (fInt a + fInt b).natAbs 1 m
          ∧ fAdd a b = fPack (decide (fInt a + fInt b < 0)) m)
      ∧ (fInt a + fInt b = 0 → fAdd a b = fPack (fSign a && fSign b) 0)
      ∧ fSub a b = fAdd a (fNeg b))
    ∧ (∀ a b : F32, fIsNaN a = true ∨ fIsNaN b = true →
        fIsNaN (fAdd a b) = true ∧ fIsNaN (fSub a b) = true ∧ fIsNaN (fMul a b) = true
          ∧ fIsNaN (fDiv a b) = true ∧ fLt a b = false ∧ fLe a b = false ∧ fGt a b = false
          ∧ fGe a b = false)
    ∧ (∀ a b : F32, fIsNaN a = false → fIsNaN b = false →
        (fLt a b = true ↔ fKey a < fKey b) ∧ (fLe a b = true ↔ fKey a ≤ fKey b)
          ∧ (fGt a b = true ↔ fKey b < fKey a) ∧ (fGe a b = true ↔ fKey b ≤ fKey a)
          ∧ fIsNaN (fSub a b) = fIsNaN (fAdd a (fNeg b))
          ∧ (fIsNaN (fSub a b) = false → fSub a b = fAdd a (fNeg b)))
    ∧ (∀ a b : F32, fIsInf a = true → fIsNaN b = false →
        (fIsInf b = true → fSign a ≠ fSign b → fIsNaN (fAdd a b) = true ∧ fIsNaN (fAdd b a) = true)
          ∧ (fIsInf b = false ∨ fSign a = fSign b → fAdd a b = a ∧ fAdd b a = a)
          ∧ (fMag b = 0 → fIsNaN (fMul a b) = true ∧ fIsNaN (fMul b a) = true)
          ∧ (fMag b ≠ 0 → fMul a b = fPack (fSign a != fSign b) fInfMag
              ∧ fMul b a = fPack (fSign a != fSign b) fInfMag)
          ∧ (fIsInf b = true → fIsNaN (fDiv a b) = true)
          ∧ (fIsInf b = false → fDiv a b = fPack (fSign a != fSign b) fInfMag
              ∧ fDiv b a = fPack (fSign a != fSign b) 0))
    ∧ ∀ a b : F32, fIsFinite a = true → fMag b = 0 →
        (fMag a = 0 → fIsNaN (fDiv a b) = true)
          ∧ (fMag a ≠ 0 → fDiv a b = fPack (fSign a != fSign b) fInfMag)

/-- R13: the conversions and clamps at every case of their definitions; `u2f` is the nearest binary32,
ties to even, and exact up to 2^24. -/
def Obligations.ConversionsAreTotalAndExact : Prop :=
  (∀ x, fIsNaN x = true → f2u32 x = 0 ∧ f2i32 x = 0)
    ∧ (∀ x, fLe x 0#32 = true → f2u32 x = 0)
    ∧ (∀ x, fGe x 0x4F800000#32 = true → f2u32 x = 4294967295)
    ∧ (∀ x, fLt 0#32 x = true → fLt x 0x4F800000#32 = true → f2u32 x = fUnits x / 2 ^ 149)
    ∧ (∀ x, fGe x 0x4F000000#32 = true → f2i32 x = 2147483647)
    ∧ (∀ x, fLe x 0xCF000000#32 = true → f2i32 x = -2147483648)
    ∧ (∀ x, fLt 0xCF000000#32 x = true → fLt x 0x4F000000#32 = true →
        f2i32 x = if fSign x then -((fUnits x / 2 ^ 149 : Nat) : Int) else (fUnits x / 2 ^ 149 : Nat))
    ∧ (∀ n, n < 2 ^ 32 → ∃ m, NearestMag (n * 2 ^ 149) 1 m ∧ u2f n = fPack false m)
    ∧ (∀ n, n ≤ 2 ^ 24 → fUnits (u2f n) = n * 2 ^ 149 ∧ fSign (u2f n) = false
        ∧ fIsFinite (u2f n) = true)
    ∧ (∀ x lo hi, fIsNaN x = true → clampf x lo hi = lo)
    ∧ (∀ x lo hi, fIsNaN x = false → clampf x lo hi = if fLt x lo then lo else if fLt hi x then hi else x)
    ∧ (∀ (v : Int) (lo hi : Nat), lo ≤ hi →
        sati v lo hi = if v < lo then lo else if (hi : Int) < v then hi else v.toNat)

/-! ### Wavetables (R141, R142) -/

/-- The properties that R142 lists for the sine table whatever the size: the four exact entries, no
entry above 1.0 in magnitude (0x3F800000 is the magnitude pattern of 1.0, below that of infinity and every
NaN), and the second half the first with the sign turned (two zeros count as equal). -/
def Obligations.SineTableShape : Prop :=
  ∀ c : Config, 2 ≤ c.wtBits →
    wavetable c .sine 0 = 0#32 ∧ wavetable c .sine (c.wtLen / 4) = 0x3F800000#32
      ∧ wavetable c .sine (c.wtLen / 2) = 0#32 ∧ wavetable c .sine (3 * c.wtLen / 4) = 0xBF800000#32
      ∧ (∀ j, j < c.wtLen → fMag (wavetable c .sine j) ≤ 0x3F800000)
      ∧ ∀ j, j < c.wtLen / 2 →
          fKey (wavetable c .sine (j + c.wtLen / 2)) = -fKey (wavetable c .sine j)

/-- The sawtooth, square, pulse, triangle, noise and silence entries of R142, the values of sawtooth
and triangle exact; `idx` is the top `WT_BITS` bits of the phase and stays within the table (R141). -/
def Obligations.OtherTablesAndIndex : Prop :=
  ∀ c : Config, 2 ≤ c.wtBits → c.wtBits ≤ 23 →
    (∀ p : Word32, tableIndex c p < c.wtLen
        ∧ tableIndex c p = (p >>> (32 - c.wtBits)).toNat)
      ∧ ∀ j, j < c.wtLen →
        (fIsFinite (wavetable c .sawtooth j) = true
            ∧ fInt (wavetable c .sawtooth j) * c.wtLen = (2 * (j : Int) - c.wtLen) * 2 ^ 149)
          ∧ (fIsFinite (wavetable c .triangle j) = true
            ∧ fInt (wavetable c .triangle j) * c.wtLen
              = (if j ≤ c.wtLen / 2 then (c.wtLen : Int) - 4 * j else 4 * j - 3 * c.wtLen) * 2 ^ 149)
          ∧ wavetable c .square j = (if c.wtLen / 2 < j then 0x3F800000#32 else 0xBF800000#32)
          ∧ wavetable c .pulse j = (if c.wtLen / 4 < j then 0x3F800000#32 else 0xBF800000#32)
          ∧ wavetable c .noise j = wordOrZero c.noise j
          ∧ wavetable c .silence j = 0#32

/-! ### SYS and BUF (R125 to R130) -/

/-- R125, R126, R127: `SYS.NOP` changes nothing; `SYS.SETP` stores a multiplier unchanged and refuses a
register of kind C; `SYS.GETP` returns the five registers. -/
def Obligations.SysCommands : Prop :=
  ∀ s : State,
    exec .sysNop s = .next s
      ∧ (∀ v, exec (.sysSetp 0 v) s = .next { s with octmul := v })
      ∧ (∀ v, exec (.sysSetp 1 v) s = .next { s with gpm := v })
      ∧ (∀ reg v, 2 ≤ reg → exec (.sysSetp reg v) s
          = .next { s with status := statusWord .illegalRegister, faultcw := s.cmdPort })
      ∧ exec (.sysGetp 0) s = .next { s with resp := s.octmul }
      ∧ exec (.sysGetp 1) s = .next { s with resp := s.gpm }
      ∧ exec (.sysGetp 2) s = .next { s with resp := BitVec.ofNat 32 s.cfg.blockLen }
      ∧ exec (.sysGetp 3) s = .next { s with resp := BitVec.ofNat 32 s.cfg.nBlk }
      ∧ exec (.sysGetp 4) s = .next { s with resp := BitVec.ofNat 32 s.cfg.wtBits }
      ∧ (∀ reg, 5 ≤ reg → exec (.sysGetp reg) s
          = .next { s with status := statusWord .illegalRegister, faultcw := s.cmdPort })

/-- R128, R129, R130: the block is cleared, copied bit for bit, or added to, sample by sample, and
nothing else changes; copying a block to itself and adding a block to itself are legal; a block index
out of range is the fault IllegalBlock. -/
def Obligations.BufCommands : Prop :=
  ∀ s : State,
    (∀ bD, bD < s.cfg.nBlk →
        ∃ t, exec (.bufClr bD) s = .next t ∧ t = { s with blocks := t.blocks } ∧ OnlyBlock bD s t
          ∧ ∀ n, n < s.cfg.blockLen → readSample t bD n = 0#32)
      ∧ (∀ bD bS, bD < s.cfg.nBlk → bS < s.cfg.nBlk →
          (∃ t, exec (.bufCpy bD bS) s = .next t ∧ t = { s with blocks := t.blocks } ∧ OnlyBlock bD s t
              ∧ ∀ n, n < s.cfg.blockLen → readSample t bD n = readSample s bS n)
            ∧ ∃ t, exec (.bufAcc bD bS) s = .next t ∧ t = { s with blocks := t.blocks }
              ∧ OnlyBlock bD s t
              ∧ ∀ n, n < s.cfg.blockLen →
                  readSample t bD n = fAdd (readSample s bD n) (readSample s bS n))
      ∧ (∀ bD, s.cfg.nBlk ≤ bD → exec (.bufClr bD) s
          = .next { s with status := statusWord .illegalBlock, faultcw := s.cmdPort })
      ∧ (∀ bD bS, s.cfg.nBlk ≤ bD ∨ s.cfg.nBlk ≤ bS →
          exec (.bufCpy bD bS) s
              = .next { s with status := statusWord .illegalBlock, faultcw := s.cmdPort }
            ∧ exec (.bufAcc bD bS) s
              = .next { s with status := statusWord .illegalBlock, faultcw := s.cmdPort })

/-! ### The two forms of a block operation (R81, R144) -/

/-- R81: for every class but `OSC`, `PROCI` on a block leaves in that block, and in the units, what
`PROC` into a scratch block leaves in the scratch block and in the units. A modulation block is asked for
only where the class reads one. That the two agree bit for bit where a sample is a NaN is the model's
choice: the same operation on the same operands gives the same NaN (notes/assumptions/3.md). -/
def Obligations.InPlaceEqualsOutOfPlace : Prop :=
  ∀ (k : UnitClass) (s t₁ t₂ : State) (i bX bT bM : Nat), k ≠ .osc → bX ≠ bT →
    bX < s.cfg.nBlk → bT < s.cfg.nBlk →
    (usesModulation k = true → bM < s.cfg.nBlk ∧ bM ≠ bX ∧ bM ≠ bT) →
    i < instances s.cfg k → s.Populated →
    exec (procOf k i bT bX bM) s = .next t₁ → exec (prociOf k i bX bM) s = .next t₂ →
    t₁.units = t₂.units ∧ ∀ n, n < s.cfg.blockLen → readSample t₂ bX n = readSample t₁ bT n

/-! ### OSC (R140 to R148) -/

/-- R143, R144: the phase advance, the morph term, the lookup, and the addition to the old destination
sample, for `OSC.PROC` and for `OSC.PROCI`, which are one operation whatever the source. -/
def Obligations.OscBlock : Prop :=
  ∀ (s : State) (i : Nat) (o : Osc), s.osc[i]? = some o →
    let rule : SampleRule Osc := fun o old _ =>
      let inc : Word32 := BitVec.ofNat 32 (f2u32 (fMul (fMul o.pitch s.octmul) s.gpm))
      let mterm : Word32 := BitVec.ofInt 32
        (f2i32 (fMul (wavetable s.cfg o.morphWave (tableIndex s.cfg (o.phase + inc))) o.morph))
      let p : Word32 := o.phase + inc + mterm
      .ok (fAdd old (fMul (wavetable s.cfg o.wave (tableIndex s.cfg p)) o.level), { o with phase := p })
    (∀ bD bS, bD < s.cfg.nBlk → bS < s.cfg.nBlk → bD ≠ bS →
        BlockResult rule (fun s u => { s with osc := s.osc.set i u }) bD bD bD o s
          (exec (.oscProc i bD bS) s)
          ∧ exec (.oscProc i bD bS) s = exec (.oscProci i bD) s)
      ∧ ∀ bX, bX < s.cfg.nBlk →
        BlockResult rule (fun s u => { s with osc := s.osc.set i u }) bX bX bX o s
          (exec (.oscProci i bX) s)

/-- The register file of `OSC` (R29): `RESET`, every `SETP`, every `GETP` (R145, R146, R148). -/
def Obligations.OscRegisters : Prop :=
  ∀ (s : State) (i : Nat) (o : Osc), s.osc[i]? = some o →
    let put : Osc → State := fun u' => { s with osc := s.osc.set i u' }
    exec (.oscReset i) s = .next (put { o with phase := 0#32 })
      ∧ (∀ v, exec (.oscSetp i 0 v) s
          = .next (put { o with wave := waveOf (sati v.toInt 0 6) }))
      ∧ (∀ v, exec (.oscSetp i 1 v) s = .next (put { o with pitch := v }))
      ∧ (∀ v, exec (.oscSetp i 2 v) s = .next (put { o with level := v }))
      ∧ (∀ v, exec (.oscSetp i 3 v) s = .next (put { o with pan := v }))
      ∧ (∀ v, exec (.oscSetp i 4 v) s
          = .next (put { o with morphWave := waveOf (sati v.toInt 0 6) }))
      ∧ (∀ v, exec (.oscSetp i 5 v) s = .next (put { o with morph := v }))
      ∧ (∀ reg v, 6 ≤ reg → exec (.oscSetp i reg v) s
          = .next { s with status := statusWord .illegalRegister, faultcw := s.cmdPort })
      ∧ exec (.oscGetp i 0) s = .next { s with resp := BitVec.ofNat 32 (waveIndex o.wave) }
      ∧ exec (.oscGetp i 1) s = .next { s with resp := o.pitch }
      ∧ exec (.oscGetp i 2) s = .next { s with resp := o.level }
      ∧ exec (.oscGetp i 3) s = .next { s with resp := o.pan }
      ∧ exec (.oscGetp i 4) s = .next { s with resp := BitVec.ofNat 32 (waveIndex o.morphWave) }
      ∧ exec (.oscGetp i 5) s = .next { s with resp := o.morph }
      ∧ exec (.oscGetp i 6) s = .next { s with resp := o.phase }
      ∧ (∀ reg, 7 ≤ reg → exec (.oscGetp i reg) s
          = .next { s with status := statusWord .illegalRegister, faultcw := s.cmdPort })

/-! ### FLT (R160 to R171) -/

/-- R166, R167, R168: the Direct Form II Transposed recurrence, `W0` from the old `W1`. -/
def Obligations.FltBlock : Prop :=
  ∀ (s : State) (i : Nat) (f : Flt), s.flt[i]? = some f →
    let rule : SampleRule Flt := fun f x _ =>
      let out := fAdd (fMul f.b0 x) f.w0
      .ok (out,
        { f with
          w0 := fAdd (fSub (fMul f.b1 x) (fMul f.a0 out)) f.w1
          w1 := fSub (fMul f.b2 x) (fMul f.a1 out) })
    (∀ bD bS, bD < s.cfg.nBlk → bS < s.cfg.nBlk → bD ≠ bS →
        BlockResult rule (fun s u => { s with flt := s.flt.set i u }) bD bS bS f s
          (exec (.fltProc i bD bS) s))
      ∧ ∀ bX, bX < s.cfg.nBlk →
        BlockResult rule (fun s u => { s with flt := s.flt.set i u }) bX bX bX f s
          (exec (.fltProci i bX) s)

/-- R161, R163, R164: the five coefficients from the three parameters. -/
def Obligations.FltDesign : Prop :=
  ∀ (c : Config) (cutoff q : F32),
    let w := clampf (fMul (fMul cutoff cutoff) cutoff) 0x3B23D70A#32 0x3F800000#32
    let ps : Word32 := BitVec.ofNat 32 (f2u32 (fMul w 0x4F000000#32))
    let sn := wavetable c .sine (tableIndex c ps)
    let cs := wavetable c .sine (tableIndex c (ps + 0x40000000#32))
    let alpha := fDiv sn (fMul 0x40000000#32 q)
    let k := fDiv 0x3F800000#32 (fAdd 0x3F800000#32 alpha)
    let rb0 := fDiv (fSub 0x3F800000#32 cs) 0x40000000#32
    designCoefs c .lowPass cutoff q
        = ⟨fMul rb0 k, fMul (fSub 0x3F800000#32 cs) k, fMul rb0 k, fMul (fMul 0xC0000000#32 cs) k,
            fMul (fSub 0x3F800000#32 alpha) k⟩
      ∧ designCoefs c .notch cutoff q
        = ⟨0x3F800000#32, fMul 0xC0000000#32 cs, 0x3F800000#32,
            fMul (fMul 0xC0000000#32 0x3F7D70A4#32) cs, fMul 0x3F7D70A4#32 0x3F7D70A4#32⟩

/-- R171, first part: at `CUTOFF` 1.0 the low-pass coefficients are 1.0, 2.0, 1.0, 2.0, 1.0, for every
table size and every legal resonance. -/
def Obligations.FltDesignAtFullCutoff : Prop :=
  ∀ (c : Config) (q : F32), 2 ≤ c.wtBits → c.wtBits ≤ 23 → fLt 0#32 q = true →
    designCoefs c .lowPass 0x3F800000#32 q
      = ⟨0x3F800000#32, 0x40000000#32, 0x3F800000#32, 0x40000000#32, 0x3F800000#32⟩

/-- R171, second part: with those coefficients and both delay registers zero, a finite sample below
2^127 in magnitude passes unchanged (an input of -0.0 may return +0.0) and the delay registers stay
zero. -/
def Obligations.FltIsTheIdentityAtFullCutoff : Prop :=
  ∀ (f : Flt) (x m : F32), f.b0 = 0x3F800000#32 → f.b1 = 0x40000000#32 → f.b2 = 0x3F800000#32 →
    f.a0 = 0x40000000#32 → f.a1 = 0x3F800000#32 → fMag f.w0 = 0 → fMag f.w1 = 0 →
    fMag x < 0x7F000000 →
    ∃ y f', stepFlt f x m = .ok (y, f') ∧ fKey y = fKey x ∧ (fMag x ≠ 0 → y = x)
      ∧ fMag f'.w0 = 0 ∧ fMag f'.w1 = 0
      ∧ f' = { f with w0 := f'.w0, w1 := f'.w1 }

/-- The register file of `FLT` (R30): `RESET` keeps the coefficients, every `SETP` recomputes all five
and leaves the delay registers, every `GETP` (R165, R169, R170). -/
def Obligations.FltRegisters : Prop :=
  ∀ (s : State) (i : Nat) (f : Flt), s.flt[i]? = some f →
    let put : Flt → State := fun u' => { s with flt := s.flt.set i u' }
    let designed : Flt → FltCoefs → Flt := fun g k =>
      { g with b0 := k.b0, b1 := k.b1, b2 := k.b2, a0 := k.a0, a1 := k.a1 }
    let modeOf : Word32 → FltMode := fun v => if sati v.toInt 0 1 = 0 then .lowPass else .notch
    exec (.fltReset i) s = .next (put { f with w0 := 0#32, w1 := 0#32 })
      ∧ (∀ v, exec (.fltSetp i 0 v) s =
          let cutoff := clampf v 0#32 0x3F800000#32
          .next (put (designed { f with cutoff := cutoff } (designCoefs s.cfg f.mode cutoff f.res))))
      ∧ (∀ v, exec (.fltSetp i 1 v) s =
          let res := clampf v s.cfg.qMin s.cfg.qMax
          .next (put (designed { f with res := res } (designCoefs s.cfg f.mode f.cutoff res))))
      ∧ (∀ v, exec (.fltSetp i 2 v) s =
          .next (put (designed { f with mode := modeOf v }
            (designCoefs s.cfg (modeOf v) f.cutoff f.res))))
      ∧ (∀ reg v, 3 ≤ reg → exec (.fltSetp i reg v) s
          = .next { s with status := statusWord .illegalRegister, faultcw := s.cmdPort })
      ∧ exec (.fltGetp i 0) s = .next { s with resp := f.cutoff }
      ∧ exec (.fltGetp i 1) s = .next { s with resp := f.res }
      ∧ exec (.fltGetp i 2) s = .next { s with resp := BitVec.ofNat 32 (modeIndex f.mode) }
      ∧ exec (.fltGetp i 3) s = .next { s with resp := f.b0 }
      ∧ exec (.fltGetp i 4) s = .next { s with resp := f.b1 }
      ∧ exec (.fltGetp i 5) s = .next { s with resp := f.b2 }
      ∧ exec (.fltGetp i 6) s = .next { s with resp := f.a0 }
      ∧ exec (.fltGetp i 7) s = .next { s with resp := f.a1 }
      ∧ exec (.fltGetp i 8) s = .next { s with resp := f.w0 }
      ∧ exec (.fltGetp i 9) s = .next { s with resp := f.w1 }
      ∧ (∀ reg, 10 ≤ reg → exec (.fltGetp i reg) s
          = .next { s with status := statusWord .illegalRegister, faultcw := s.cmdPort })

/-! ### ENV (R180 to R190) -/

/-- R181: exactly one arm runs in a step, and the step's return value is the new `ACTIVE`. -/
def Obligations.EnvStepArms : Prop :=
  ∀ e : Env,
    (e.phase = .attack → stepEnv e =
        if fLe 0x3F800000#32 (fAdd e.control e.attack)
        then { e with control := 0x3F800000#32, phase := .decay, active := true }
        else { e with control := fAdd e.control e.attack, active := true })
      ∧ (e.phase = .decay → stepEnv e =
          if fLe (fSub e.control e.decay) e.sustain
          then { e with control := e.sustain, phase := .sustain, active := true }
          else { e with control := fSub e.control e.decay, active := true })
      ∧ (e.phase = .sustain → stepEnv e = { e with active := true })
      ∧ (e.phase = .release → stepEnv e =
          if fLe (fSub e.control e.release) 0#32
          then { e with control := 0#32, active := false }
          else { e with control := fSub e.control e.release, active := true })

/-- R190: a zero rate holds the phase and the control value with `ACTIVE` set; a finished release stays
finished. -/
def Obligations.EnvHoldAndTermination : Prop :=
  ∀ e : Env, Env.InRange e →
    (e.phase = .attack → fMag e.attack = 0 → fLt e.control 0x3F800000#32 = true →
        (stepEnv e).phase = .attack ∧ (stepEnv e).active = true
          ∧ fKey (stepEnv e).control = fKey e.control)
      ∧ (e.phase = .decay → fMag e.decay = 0 → fLt e.sustain e.control = true →
          (stepEnv e).phase = .decay ∧ (stepEnv e).active = true
            ∧ fKey (stepEnv e).control = fKey e.control)
      ∧ (e.phase = .release → fMag e.release = 0 → fLt 0#32 e.control = true →
          (stepEnv e).phase = .release ∧ (stepEnv e).active = true
            ∧ fKey (stepEnv e).control = fKey e.control)
      ∧ (e.phase = .release → e.control = 0#32 →
          stepEnv e = { e with active := false })

/-- R183, R184: each sample takes one envelope step and scales the source by the control value it
leaves. -/
def Obligations.EnvBlock : Prop :=
  ∀ (s : State) (i : Nat) (e : Env), s.env[i]? = some e →
    let rule : SampleRule Env := fun e x _ => .ok (fMul x (stepEnv e).control, stepEnv e)
    (∀ bD bS, bD < s.cfg.nBlk → bS < s.cfg.nBlk → bD ≠ bS →
        BlockResult rule (fun s u => { s with env := s.env.set i u }) bD bS bS e s
          (exec (.envProc i bD bS) s))
      ∧ ∀ bX, bX < s.cfg.nBlk →
        BlockResult rule (fun s u => { s with env := s.env.set i u }) bX bX bX e s
          (exec (.envProci i bX) s)

/-- The register file of `ENV` (R31) and the commands that only change it: `RESET`, `START`, `REL`,
`STEP`, every `SETP`, every `GETP` (R182, R185 to R189). -/
def Obligations.EnvRegisters : Prop :=
  ∀ (s : State) (i : Nat) (e : Env), s.env[i]? = some e →
    let put : Env → State := fun u' => { s with env := s.env.set i u' }
    exec (.envReset i) s = .next (put { e with phase := .release, control := 0#32, active := false })
      ∧ exec (.envStart i) s = .next (put { e with phase := .attack, control := 0#32, active := true })
      ∧ exec (.envRel i) s = .next (put { e with phase := .release })
      ∧ exec (.envStep i) s = .next { s with
          env := s.env.set i (stepEnv e)
          resp := if (stepEnv e).active then 1#32 else 0#32 }
      ∧ (∀ v, exec (.envSetp i 0 v) s = .next (put { e with attack := clampf v 0#32 0x3F800000#32 }))
      ∧ (∀ v, exec (.envSetp i 1 v) s = .next (put { e with decay := clampf v 0#32 0x3F800000#32 }))
      ∧ (∀ v, exec (.envSetp i 2 v) s = .next (put { e with sustain := clampf v 0#32 0x3F800000#32 }))
      ∧ (∀ v, exec (.envSetp i 3 v) s = .next (put { e with release := clampf v 0#32 0x3F800000#32 }))
      ∧ (∀ reg v, 4 ≤ reg → exec (.envSetp i reg v) s
          = .next { s with status := statusWord .illegalRegister, faultcw := s.cmdPort })
      ∧ exec (.envGetp i 0) s = .next { s with resp := e.attack }
      ∧ exec (.envGetp i 1) s = .next { s with resp := e.decay }
      ∧ exec (.envGetp i 2) s = .next { s with resp := e.sustain }
      ∧ exec (.envGetp i 3) s = .next { s with resp := e.release }
      ∧ exec (.envGetp i 4) s = .next { s with resp := BitVec.ofNat 32 (envPhaseIndex e.phase) }
      ∧ exec (.envGetp i 5) s = .next { s with resp := e.control }
      ∧ exec (.envGetp i 6) s = .next { s with resp := if e.active then 1#32 else 0#32 }
      ∧ (∀ reg, 7 ≤ reg → exec (.envGetp i reg) s
          = .next { s with status := statusWord .illegalRegister, faultcw := s.cmdPort })

/-! ### DLY (R200 to R206) -/

/-- R200: one sample of the delay, the write before the read; R206: which earlier sample it reads. -/
def Obligations.DlySample : Prop :=
  ∀ (c : Config) (d : Dly) (x m : F32), Dly.Ok c d →
    let written := fMul x d.inLevel
    let r := (d.wcur + 1 + c.capDly - d.length) % c.capDly
    let delayed := if r = d.wcur then written else wordOrZero d.buf r
    (∃ d', stepDly c d x m = .ok (fAdd x (fMul delayed d.outLevel), d')
        ∧ d' = { d with wcur := (d.wcur + 1) % c.capDly, buf := d'.buf }
        ∧ ∀ a, wordOrZero d'.buf a
            = if a = d.wcur then fAdd written (fMul delayed d.feedback) else wordOrZero d.buf a)
      ∧ (1 ≤ d.length → (r + (d.length - 1)) % c.capDly = d.wcur)
      ∧ (d.length = 0 → r = (d.wcur + 1) % c.capDly)

/-- R201, R202: `DLY.PROC` and `DLY.PROCI` run that rule over the block. -/
def Obligations.DlyBlock : Prop :=
  ∀ (s : State) (i : Nat) (d : Dly), s.dly[i]? = some d → Dly.Ok s.cfg d →
    (∀ bD bS, bD < s.cfg.nBlk → bS < s.cfg.nBlk → bD ≠ bS →
        BlockResult (stepDly s.cfg) (fun s u => { s with dly := s.dly.set i u }) bD bS bS d s
          (exec (.dlyProc i bD bS) s))
      ∧ ∀ bX, bX < s.cfg.nBlk →
        BlockResult (stepDly s.cfg) (fun s u => { s with dly := s.dly.set i u }) bX bX bX d s
          (exec (.dlyProci i bX) s)

/-- The register file of `DLY` (R32): `RESET`, every `SETP`, every `GETP` (R203, R204, R205). -/
def Obligations.DlyRegisters : Prop :=
  ∀ (s : State) (i : Nat) (d : Dly), s.dly[i]? = some d →
    let put : Dly → State := fun u' => { s with dly := s.dly.set i u' }
    (∃ d', exec (.dlyReset i) s = .next (put d')
        ∧ d' = { d with wcur := 0, buf := d'.buf } ∧ ∀ a, wordOrZero d'.buf a = 0#32)
      ∧ (∀ v, exec (.dlySetp i 0 v) s = .next (put { d with length := sati v.toInt 0 s.cfg.capDly }))
      ∧ (∀ v, exec (.dlySetp i 1 v) s = .next (put { d with inLevel := v }))
      ∧ (∀ v, exec (.dlySetp i 2 v) s = .next (put { d with outLevel := v }))
      ∧ (∀ v, exec (.dlySetp i 3 v) s = .next (put { d with feedback := v }))
      ∧ (∀ reg v, 4 ≤ reg → exec (.dlySetp i reg v) s
          = .next { s with status := statusWord .illegalRegister, faultcw := s.cmdPort })
      ∧ exec (.dlyGetp i 0) s = .next { s with resp := BitVec.ofNat 32 d.length }
      ∧ exec (.dlyGetp i 1) s = .next { s with resp := d.inLevel }
      ∧ exec (.dlyGetp i 2) s = .next { s with resp := d.outLevel }
      ∧ exec (.dlyGetp i 3) s = .next { s with resp := d.feedback }
      ∧ exec (.dlyGetp i 4) s = .next { s with resp := BitVec.ofNat 32 d.wcur }
      ∧ (∀ reg, 5 ≤ reg → exec (.dlyGetp i reg) s
          = .next { s with status := statusWord .illegalRegister, faultcw := s.cmdPort })

/-! ### CMB and APF (R210 to R222) -/

/-- R210: one comb sample; the output is the word read back, before the update. -/
def Obligations.CombSample : Prop :=
  ∀ (cap : Nat) (u : Line) (x : F32), Line.Ok cap u →
    ∃ u', combStep cap u x = .ok (wordOrZero u.buf u.cur, u')
      ∧ u' = { u with cur := (u.cur + 1) % u.limit, buf := u'.buf }
      ∧ ∀ a, wordOrZero u'.buf a
          = if a = u.cur then fAdd (fMul (wordOrZero u.buf u.cur) u.gain) x else wordOrZero u.buf a

/-- R216: one allpass sample; the output is the readback, and the buffer takes the new value. -/
def Obligations.AllpassSample : Prop :=
  ∀ (cap : Nat) (u : Line) (x : F32), Line.Ok cap u →
    let readback := fSub (wordOrZero u.buf u.cur) (fMul u.gain x)
    ∃ u', apfStep cap u x = .ok (readback, u')
      ∧ u' = { u with cur := (u.cur + 1) % u.limit, buf := u'.buf }
      ∧ ∀ a, wordOrZero u'.buf a
          = if a = u.cur then fAdd (fMul readback u.gain) x else wordOrZero u.buf a

/-- R236: with a zero input and a gain in [0, 1), no comb slot grows in magnitude. -/
def Obligations.CombSlotsDecay : Prop :=
  ∀ (cap : Nat) (u u' : Line) (y : F32), Line.Ok cap u → inRange 0#32 0x3F800000#32 u.gain = true →
    fLt u.gain 0x3F800000#32 = true → (∀ a, fIsFinite (wordOrZero u.buf a) = true) →
    combStep cap u 0#32 = .ok (y, u') →
    ∀ a, fMag (wordOrZero u'.buf a) ≤ fMag (wordOrZero u.buf a)

/-- R211, R212, R217, R218: `PROC` and `PROCI` of `CMB` and of `APF` run those rules over the block. -/
def Obligations.CombAllpassBlock : Prop :=
  (∀ (s : State) (i : Nat) (u : Line), s.cmb[i]? = some u → Line.Ok s.cfg.capCmb u →
      (∀ bD bS, bD < s.cfg.nBlk → bS < s.cfg.nBlk → bD ≠ bS →
          BlockResult (fun u x _ => combStep s.cfg.capCmb u x)
            (fun s u => { s with cmb := s.cmb.set i u }) bD bS bS u s (exec (.cmbProc i bD bS) s))
        ∧ ∀ bX, bX < s.cfg.nBlk →
          BlockResult (fun u x _ => combStep s.cfg.capCmb u x)
            (fun s u => { s with cmb := s.cmb.set i u }) bX bX bX u s (exec (.cmbProci i bX) s))
    ∧ ∀ (s : State) (i : Nat) (u : Line), s.apf[i]? = some u → Line.Ok s.cfg.capApf u →
      (∀ bD bS, bD < s.cfg.nBlk → bS < s.cfg.nBlk → bD ≠ bS →
          BlockResult (fun u x _ => apfStep s.cfg.capApf u x)
            (fun s u => { s with apf := s.apf.set i u }) bD bS bS u s (exec (.apfProc i bD bS) s))
        ∧ ∀ bX, bX < s.cfg.nBlk →
          BlockResult (fun u x _ => apfStep s.cfg.capApf u x)
            (fun s u => { s with apf := s.apf.set i u }) bX bX bX u s (exec (.apfProci i bX) s)

/-- The register files of `CMB` and `APF` (R33, R34): `RESET`, every `SETP`, every `GETP` (R213 to R215,
R219 to R221). -/
def Obligations.CombAllpassRegisters : Prop :=
  (∀ (s : State) (i : Nat) (u : Line), s.cmb[i]? = some u →
      let put : Line → State := fun u' => { s with cmb := s.cmb.set i u' }
      (∃ u', exec (.cmbReset i) s = .next (put u')
          ∧ u' = { u with cur := 0, buf := u'.buf } ∧ ∀ a, wordOrZero u'.buf a = 0#32)
        ∧ (∀ v, exec (.cmbSetp i 0 v) s = .next (put { u with limit := sati v.toInt 1 s.cfg.capCmb }))
        ∧ (∀ v, exec (.cmbSetp i 1 v) s = .next (put { u with gain := v }))
        ∧ (∀ reg v, 2 ≤ reg → exec (.cmbSetp i reg v) s
            = .next { s with status := statusWord .illegalRegister, faultcw := s.cmdPort })
        ∧ exec (.cmbGetp i 0) s = .next { s with resp := BitVec.ofNat 32 u.limit }
        ∧ exec (.cmbGetp i 1) s = .next { s with resp := u.gain }
        ∧ exec (.cmbGetp i 2) s = .next { s with resp := BitVec.ofNat 32 u.cur }
        ∧ (∀ reg, 3 ≤ reg → exec (.cmbGetp i reg) s
            = .next { s with status := statusWord .illegalRegister, faultcw := s.cmdPort }))
    ∧ ∀ (s : State) (i : Nat) (u : Line), s.apf[i]? = some u →
      let put : Line → State := fun u' => { s with apf := s.apf.set i u' }
      (∃ u', exec (.apfReset i) s = .next (put u')
          ∧ u' = { u with cur := 0, buf := u'.buf } ∧ ∀ a, wordOrZero u'.buf a = 0#32)
        ∧ (∀ v, exec (.apfSetp i 0 v) s = .next (put { u with limit := sati v.toInt 1 s.cfg.capApf }))
        ∧ (∀ v, exec (.apfSetp i 1 v) s = .next (put { u with gain := v }))
        ∧ (∀ reg v, 2 ≤ reg → exec (.apfSetp i reg v) s
            = .next { s with status := statusWord .illegalRegister, faultcw := s.cmdPort })
        ∧ exec (.apfGetp i 0) s = .next { s with resp := BitVec.ofNat 32 u.limit }
        ∧ exec (.apfGetp i 1) s = .next { s with resp := u.gain }
        ∧ exec (.apfGetp i 2) s = .next { s with resp := BitVec.ofNat 32 u.cur }
        ∧ (∀ reg, 3 ≤ reg → exec (.apfGetp i reg) s
            = .next { s with status := statusWord .illegalRegister, faultcw := s.cmdPort })

/-! ### REV (R230 to R236) -/

/-- R230: one reverb sample: four combs on the same input, their sum in order times 0.25, three
allpasses in series, the dry input plus the scaled result. -/
def Obligations.RevSample : Prop :=
  ∀ (c : Config) (r : Rev) (x m : F32), Rev.Ok c r →
    ∃ y0 y1 y2 y3 z0 z1 z2 c0 c1 c2 c3 a0 a1 a2,
      combStep c.capRevCb0 r.cb0 x = .ok (y0, c0) ∧ combStep c.capRevCb1 r.cb1 x = .ok (y1, c1)
        ∧ combStep c.capRevCb2 r.cb2 x = .ok (y2, c2) ∧ combStep c.capRevCb3 r.cb3 x = .ok (y3, c3)
        ∧ apfStep c.capRevAp0 r.ap0 (fMul (fAdd (fAdd (fAdd y0 y1) y2) y3) 0x3E800000#32) = .ok (z0, a0)
        ∧ apfStep c.capRevAp1 r.ap1 z0 = .ok (z1, a1) ∧ apfStep c.capRevAp2 r.ap2 z1 = .ok (z2, a2)
        ∧ stepRev c r x m = .ok (fAdd x (fMul z2 r.level), ⟨r.level, r.time, c0, c1, c2, c3, a0, a1, a2⟩)

/-- R231, R232: `REV.PROC` and `REV.PROCI` run that rule over the block. -/
def Obligations.RevBlock : Prop :=
  ∀ (s : State) (i : Nat) (r : Rev), s.rev[i]? = some r → Rev.Ok s.cfg r →
    (∀ bD bS, bD < s.cfg.nBlk → bS < s.cfg.nBlk → bD ≠ bS →
        BlockResult (stepRev s.cfg) (fun s u => { s with rev := s.rev.set i u }) bD bS bS r s
          (exec (.revProc i bD bS) s))
      ∧ ∀ bX, bX < s.cfg.nBlk →
        BlockResult (stepRev s.cfg) (fun s u => { s with rev := s.rev.set i u }) bX bX bX r s
          (exec (.revProci i bX) s)

/-- The register file of `REV` (R35): `RESET`, every `SETP` with the seven limits that `TIME` rewrites,
every `GETP` (R233, R234, R235). -/
def Obligations.RevRegisters : Prop :=
  ∀ (s : State) (i : Nat) (r : Rev), s.rev[i]? = some r →
    let cleared : Line → Line := fun u => { u with cur := 0, buf := [] }
    let limited : F32 → Nat → Line → Line := fun time cap u =>
      { u with limit := sati (f2u32 (fMul time (u2f cap)) : Nat) 1 cap }
    let put : Rev → State := fun r' => { s with rev := s.rev.set i r' }
    exec (.revReset i) s = .next (put ⟨r.level, r.time, cleared r.cb0, cleared r.cb1, cleared r.cb2,
        cleared r.cb3, cleared r.ap0, cleared r.ap1, cleared r.ap2⟩)
      ∧ (∀ v, exec (.revSetp i 0 v) s = .next (put { r with level := v }))
      ∧ (∀ v, exec (.revSetp i 1 v) s =
          let t := clampf v 0#32 0x3F800000#32
          .next (put ⟨r.level, t, limited t s.cfg.capRevCb0 r.cb0, limited t s.cfg.capRevCb1 r.cb1,
            limited t s.cfg.capRevCb2 r.cb2, limited t s.cfg.capRevCb3 r.cb3,
            limited t s.cfg.capRevAp0 r.ap0, limited t s.cfg.capRevAp1 r.ap1,
            limited t s.cfg.capRevAp2 r.ap2⟩))
      ∧ (∀ v, exec (.revSetp i 2 v) s = .next (put { r with cb0 := { r.cb0 with gain := v } }))
      ∧ (∀ v, exec (.revSetp i 3 v) s = .next (put { r with cb1 := { r.cb1 with gain := v } }))
      ∧ (∀ v, exec (.revSetp i 4 v) s = .next (put { r with cb2 := { r.cb2 with gain := v } }))
      ∧ (∀ v, exec (.revSetp i 5 v) s = .next (put { r with cb3 := { r.cb3 with gain := v } }))
      ∧ (∀ v, exec (.revSetp i 6 v) s = .next (put { r with ap0 := { r.ap0 with gain := v } }))
      ∧ (∀ v, exec (.revSetp i 7 v) s = .next (put { r with ap1 := { r.ap1 with gain := v } }))
      ∧ (∀ v, exec (.revSetp i 8 v) s = .next (put { r with ap2 := { r.ap2 with gain := v } }))
      ∧ (∀ reg v, 9 ≤ reg → exec (.revSetp i reg v) s
          = .next { s with status := statusWord .illegalRegister, faultcw := s.cmdPort })
      ∧ (∀ reg v, [r.level, r.time, r.cb0.gain, r.cb1.gain, r.cb2.gain, r.cb3.gain, r.ap0.gain,
            r.ap1.gain, r.ap2.gain, BitVec.ofNat 32 r.cb0.limit, BitVec.ofNat 32 r.cb1.limit,
            BitVec.ofNat 32 r.cb2.limit, BitVec.ofNat 32 r.cb3.limit, BitVec.ofNat 32 r.ap0.limit,
            BitVec.ofNat 32 r.ap1.limit, BitVec.ofNat 32 r.ap2.limit, BitVec.ofNat 32 r.cb0.cur,
            BitVec.ofNat 32 r.cb1.cur, BitVec.ofNat 32 r.cb2.cur, BitVec.ofNat 32 r.cb3.cur,
            BitVec.ofNat 32 r.ap0.cur, BitVec.ofNat 32 r.ap1.cur, BitVec.ofNat 32 r.ap2.cur][reg]?
            = some v →
          exec (.revGetp i reg) s = .next { s with resp := v })
      ∧ (∀ reg, 23 ≤ reg → exec (.revGetp i reg) s
          = .next { s with status := statusWord .illegalRegister, faultcw := s.cmdPort })

/-! ### PHA (R240 to R245) -/

/-- R240: one phaser sample: the limit from the modulation sample, each stage's cursor corrected before
use and wrapped after it, each stage feeding the next, the output the input less the scaled result. -/
def Obligations.PhaSample : Prop :=
  ∀ (c : Config) (ph : Pha) (x l : F32), Pha.Ok c ph → 1 ≤ c.capPha →
    let lim := sati (f2u32 (fMul (fAdd 0x3F000000#32 (fMul 0x3F000000#32 (fMul l ph.depth)))
      (u2f c.capPha)) : Nat) 1 c.capPha
    let wrap : Nat → Nat := fun p => if lim ≤ p then 0 else p
    1 ≤ lim ∧ lim ≤ c.capPha
      ∧ ∃ (ys : Nat → F32) (ph' : Pha),
        stepPha c ph x l = .ok (fSub x (fMul (ys c.nPhaStages) ph.depth), ph')
          ∧ ph' = { ph with stages := ph'.stages } ∧ ph'.stages.length = ph.stages.length ∧ ys 0 = x
          ∧ ∀ (k : Nat) (st st' : PhaStage), ph.stages[k]? = some st → ph'.stages[k]? = some st' →
              let p := wrap st.cur
              let readback := fSub (wordOrZero st.buf p) (fMul ph.gain (ys k))
              ys (k + 1) = readback ∧ st'.cur = wrap (p + 1)
                ∧ ∀ a, wordOrZero st'.buf a
                    = if a = p then fAdd (fMul readback ph.gain) (ys k) else wordOrZero st.buf a

/-- R241, R242: `PHA.PROC` and `PHA.PROCI` run that rule over the block; the modulation block may be the
source. -/
def Obligations.PhaBlock : Prop :=
  ∀ (s : State) (i : Nat) (ph : Pha), s.pha[i]? = some ph → Pha.Ok s.cfg ph →
    (∀ bD bS bM, bD < s.cfg.nBlk → bS < s.cfg.nBlk → bM < s.cfg.nBlk → bD ≠ bS → bM ≠ bD →
        BlockResult (stepPha s.cfg) (fun s u => { s with pha := s.pha.set i u }) bD bS bM ph s
          (exec (.phaProc i bD bS bM) s))
      ∧ ∀ bX bM, bX < s.cfg.nBlk → bM < s.cfg.nBlk → bM ≠ bX →
        BlockResult (stepPha s.cfg) (fun s u => { s with pha := s.pha.set i u }) bX bX bM ph s
          (exec (.phaProci i bX bM) s)

/-- The register file of `PHA` (R36): `RESET`, every `SETP`, every `GETP` (R243, R244, R245). -/
def Obligations.PhaRegisters : Prop :=
  ∀ (s : State) (i : Nat) (ph : Pha), s.pha[i]? = some ph → ph.stages.length = s.cfg.nPhaStages →
    let put : Pha → State := fun u' => { s with pha := s.pha.set i u' }
    (∃ ph', exec (.phaReset i) s = .next (put ph')
        ∧ ph' = { ph with stages := ph'.stages } ∧ ph'.stages.length = ph.stages.length
        ∧ ∀ st ∈ ph'.stages, st.cur = 0 ∧ ∀ a, wordOrZero st.buf a = 0#32)
      ∧ (∀ v, exec (.phaSetp i 0 v) s = .next (put { ph with depth := clampf v 0#32 0x3F800000#32 }))
      ∧ (∀ v, exec (.phaSetp i 1 v) s = .next (put { ph with gain := v }))
      ∧ (∀ reg v, 2 ≤ reg → exec (.phaSetp i reg v) s
          = .next { s with status := statusWord .illegalRegister, faultcw := s.cmdPort })
      ∧ exec (.phaGetp i 0) s = .next { s with resp := ph.depth }
      ∧ exec (.phaGetp i 1) s = .next { s with resp := ph.gain }
      ∧ (∀ (k : Nat) (st : PhaStage), ph.stages[k]? = some st →
          exec (.phaGetp i (2 + k)) s = .next { s with resp := BitVec.ofNat 32 st.cur })
      ∧ (∀ reg, 2 + s.cfg.nPhaStages ≤ reg → exec (.phaGetp i reg) s
          = .next { s with status := statusWord .illegalRegister, faultcw := s.cmdPort })

/-! ### VIB and TRM (R250 to R266) -/

/-- R251: one vibrato sample, the write before the read, the delay kept within the buffer whatever the
modulation sample. -/
def Obligations.VibSample : Prop :=
  ∀ (c : Config) (v : Vib) (x l : F32), Vib.Ok c v →
    let k := min (f2u32 (fMul (u2f v.intenCur) (fAdd 0x3F800000#32 l))) (c.capVib - 1)
    let r := (v.wcur + c.capVib - k) % c.capVib
    let delayed := if r = v.wcur then x else wordOrZero v.buf r
    r < c.capVib
      ∧ ∃ v', stepVib c v x l
          = .ok (fAdd (fMul delayed v.depth) (fMul x (fSub 0x3F800000#32 v.depth)), v')
        ∧ v' = { v with wcur := (v.wcur + 1) % c.capVib, buf := v'.buf }
        ∧ ∀ a, wordOrZero v'.buf a = if a = v.wcur then x else wordOrZero v.buf a

/-- R250, R252, R253: the centre delay moves one sample toward its target before the first sample of the
block; then the rule runs over the block. -/
def Obligations.VibBlock : Prop :=
  ∀ (s : State) (i : Nat) (v : Vib), s.vib[i]? = some v → Vib.Ok s.cfg v →
    let ramped : Vib :=
      if v.intenCur < v.intensity then { v with intenCur := v.intenCur + 1 }
      else if v.intensity < v.intenCur then { v with intenCur := v.intenCur - 1 }
      else v
    (∀ bD bS bM, bD < s.cfg.nBlk → bS < s.cfg.nBlk → bM < s.cfg.nBlk → bD ≠ bS → bM ≠ bD →
        BlockResult (stepVib s.cfg) (fun s u => { s with vib := s.vib.set i u }) bD bS bM ramped s
          (exec (.vibProc i bD bS bM) s))
      ∧ ∀ bX bM, bX < s.cfg.nBlk → bM < s.cfg.nBlk → bM ≠ bX →
        BlockResult (stepVib s.cfg) (fun s u => { s with vib := s.vib.set i u }) bX bX bM ramped s
          (exec (.vibProci i bX bM) s)

/-- R260, R261, R262: the gain from the internal LFO before its advance or from the modulation sample,
the LFO advancing in both modes. -/
def Obligations.TrmBlock : Prop :=
  ∀ (s : State) (i : Nat) (t : Trm), s.trm[i]? = some t →
    let rule : SampleRule Trm := fun t x l =>
      let m := match t.modSrc with
        | .internal => wavetable s.cfg .sine (tableIndex s.cfg (t.lfoPhase + t.shift))
        | .external => l
      let g := fAdd (fSub 0x3F800000#32 t.depth)
        (fMul t.depth (fAdd 0x3F000000#32 (fMul 0x3F000000#32 m)))
      .ok (fMul x g, { t with lfoPhase := t.lfoPhase + t.rate })
    (∀ bD bS bM, bD < s.cfg.nBlk → bS < s.cfg.nBlk → bM < s.cfg.nBlk → bD ≠ bS → bM ≠ bD →
        BlockResult rule (fun s u => { s with trm := s.trm.set i u }) bD bS bM t s
          (exec (.trmProc i bD bS bM) s))
      ∧ ∀ bX bM, bX < s.cfg.nBlk → bM < s.cfg.nBlk → bM ≠ bX →
        BlockResult rule (fun s u => { s with trm := s.trm.set i u }) bX bX bM t s
          (exec (.trmProci i bX bM) s)

/-- The register files of `VIB` and `TRM` (R37, R38): `RESET`, every `SETP`, every `GETP` (R254 to R256,
R263 to R265). -/
def Obligations.VibTrmRegisters : Prop :=
  (∀ (s : State) (i : Nat) (v : Vib), s.vib[i]? = some v →
      let put : Vib → State := fun u' => { s with vib := s.vib.set i u' }
      (∃ v', exec (.vibReset i) s = .next (put v')
          ∧ v' = { v with intenCur := 0, wcur := 0, buf := v'.buf } ∧ ∀ a, wordOrZero v'.buf a = 0#32)
        ∧ (∀ w, exec (.vibSetp i 0 w) s = .next (put { v with depth := clampf w 0#32 0x3F800000#32 }))
        ∧ (∀ w, exec (.vibSetp i 1 w) s
            = .next (put { v with intensity := sati w.toInt 0 ((s.cfg.capVib - 1) / 2) }))
        ∧ (∀ reg w, 2 ≤ reg → exec (.vibSetp i reg w) s
            = .next { s with status := statusWord .illegalRegister, faultcw := s.cmdPort })
        ∧ exec (.vibGetp i 0) s = .next { s with resp := v.depth }
        ∧ exec (.vibGetp i 1) s = .next { s with resp := BitVec.ofNat 32 v.intensity }
        ∧ exec (.vibGetp i 2) s = .next { s with resp := BitVec.ofNat 32 v.intenCur }
        ∧ exec (.vibGetp i 3) s = .next { s with resp := BitVec.ofNat 32 v.wcur }
        ∧ (∀ reg, 4 ≤ reg → exec (.vibGetp i reg) s
            = .next { s with status := statusWord .illegalRegister, faultcw := s.cmdPort }))
    ∧ ∀ (s : State) (i : Nat) (t : Trm), s.trm[i]? = some t →
      let put : Trm → State := fun u' => { s with trm := s.trm.set i u' }
      exec (.trmReset i) s = .next (put { t with lfoPhase := 0#32 })
        ∧ (∀ w, exec (.trmSetp i 0 w) s = .next (put { t with depth := clampf w 0#32 0x3F800000#32 }))
        ∧ (∀ w, exec (.trmSetp i 1 w) s
            = .next (put { t with modSrc := if sati w.toInt 0 1 = 0 then .internal else .external }))
        ∧ (∀ w, exec (.trmSetp i 2 w) s = .next (put { t with rate := w }))
        ∧ (∀ w, exec (.trmSetp i 3 w) s = .next (put { t with shift := w }))
        ∧ (∀ reg w, 4 ≤ reg → exec (.trmSetp i reg w) s
            = .next { s with status := statusWord .illegalRegister, faultcw := s.cmdPort })
        ∧ exec (.trmGetp i 0) s = .next { s with resp := t.depth }
        ∧ exec (.trmGetp i 1) s = .next { s with resp := BitVec.ofNat 32 (modSrcIndex t.modSrc) }
        ∧ exec (.trmGetp i 2) s = .next { s with resp := t.rate }
        ∧ exec (.trmGetp i 3) s = .next { s with resp := t.shift }
        ∧ exec (.trmGetp i 4) s = .next { s with resp := t.lfoPhase }
        ∧ (∀ reg, 5 ≤ reg → exec (.trmGetp i reg) s
            = .next { s with status := statusWord .illegalRegister, faultcw := s.cmdPort })

/-! ### PSH (R270 to R276) -/

/-- R270: one pitch-shifter sample, both reads before the write; the weights are the distances from the
write cursor over half the capacity and add to half the capacity. -/
def Obligations.PshSample : Prop :=
  ∀ (c : Config) (u : Psh) (x m : F32), Psh.Ok c u → c.capPsh % 2 = 0 →
    let cap := c.capPsh
    let half := cap / 2
    let i1 := min (f2u32 u.rpos) (cap - 1)
    let i2 := (i1 + half) % cap
    let q : Nat → Nat := fun i => min ((u.wcur + cap - i) % cap) (cap - (u.wcur + cap - i) % cap)
    let wet := fAdd (fMul (wordOrZero u.buf i1) (fDiv (u2f (q i1)) (u2f half)))
      (fMul (wordOrZero u.buf i2) (fDiv (u2f (q i2)) (u2f half)))
    let pos := fAdd u.rpos u.speed
    q i1 + q i2 = half
      ∧ ∃ u', stepPsh c u x m = .ok (fAdd (fMul x (fSub 0x3F800000#32 u.mix)) (fMul wet u.mix), u')
        ∧ u' = { u with
            wcur := (u.wcur + 1) % cap
            rpos := if fLe (u2f cap) pos then fSub pos (u2f cap) else pos
            buf := u'.buf }
        ∧ ∀ a, wordOrZero u'.buf a
            = if a = u.wcur then fAdd x (fMul wet u.feedback) else wordOrZero u.buf a

/-- R276: at speed 1.0, mix 1.0 and feedback 0.0, with the read position at the write cursor, a sample
gives out the word written half a buffer earlier, stores the input, and leaves the read position at the
write cursor (values are compared without the sign of zero). -/
def Obligations.PshDelaysByHalfTheBuffer : Prop :=
  ∀ (c : Config) (u : Psh) (x m : F32), configLegal c = true → Psh.Ok c u →
    u.speed = 0x3F800000#32 → u.mix = 0x3F800000#32 → u.feedback = 0#32 → u.rpos = u2f u.wcur →
    fIsFinite x = true → (∀ a, fIsFinite (wordOrZero u.buf a) = true) →
    ∃ y u', stepPsh c u x m = .ok (y, u')
      ∧ fKey y = fKey (wordOrZero u.buf ((u.wcur + c.capPsh / 2) % c.capPsh))
      ∧ fKey (wordOrZero u'.buf u.wcur) = fKey x
      ∧ (∀ a, a ≠ u.wcur → wordOrZero u'.buf a = wordOrZero u.buf a)
      ∧ u'.wcur = (u.wcur + 1) % c.capPsh ∧ u'.rpos = u2f u'.wcur

/-- R271, R272: `PSH.PROC` and `PSH.PROCI` run the rule over the block. -/
def Obligations.PshBlock : Prop :=
  ∀ (s : State) (i : Nat) (u : Psh), s.psh[i]? = some u → Psh.Ok s.cfg u →
    (∀ bD bS, bD < s.cfg.nBlk → bS < s.cfg.nBlk → bD ≠ bS →
        BlockResult (stepPsh s.cfg) (fun s u => { s with psh := s.psh.set i u }) bD bS bS u s
          (exec (.pshProc i bD bS) s))
      ∧ ∀ bX, bX < s.cfg.nBlk →
        BlockResult (stepPsh s.cfg) (fun s u => { s with psh := s.psh.set i u }) bX bX bX u s
          (exec (.pshProci i bX) s)

/-- The register file of `PSH` (R39): `RESET`, every `SETP`, every `GETP` (R273, R274, R275). -/
def Obligations.PshRegisters : Prop :=
  ∀ (s : State) (i : Nat) (u : Psh), s.psh[i]? = some u →
    let put : Psh → State := fun u' => { s with psh := s.psh.set i u' }
    (∃ u', exec (.pshReset i) s = .next (put u')
        ∧ u' = { u with wcur := 0, rpos := 0#32, buf := u'.buf } ∧ ∀ a, wordOrZero u'.buf a = 0#32)
      ∧ (∀ v, exec (.pshSetp i 0 v) s = .next (put { u with speed := clampf v 0#32 s.cfg.speedMax }))
      ∧ (∀ v, exec (.pshSetp i 1 v) s = .next (put { u with feedback := v }))
      ∧ (∀ v, exec (.pshSetp i 2 v) s = .next (put { u with mix := clampf v 0#32 0x3F800000#32 }))
      ∧ (∀ reg v, 3 ≤ reg → exec (.pshSetp i reg v) s
          = .next { s with status := statusWord .illegalRegister, faultcw := s.cmdPort })
      ∧ exec (.pshGetp i 0) s = .next { s with resp := u.speed }
      ∧ exec (.pshGetp i 1) s = .next { s with resp := u.feedback }
      ∧ exec (.pshGetp i 2) s = .next { s with resp := u.mix }
      ∧ exec (.pshGetp i 3) s = .next { s with resp := BitVec.ofNat 32 u.wcur }
      ∧ exec (.pshGetp i 4) s = .next { s with resp := u.rpos }
      ∧ (∀ reg, 5 ≤ reg → exec (.pshGetp i reg) s
          = .next { s with status := statusWord .illegalRegister, faultcw := s.cmdPort })
end

