-- ==== Sys2Proof/Laws/Float.lean ====
section
/-! SUPPORT. Small lemmas of the binary32 operations: patterns, NaNs, the rounding of whole numbers,
comparisons and clamps. -/

namespace Sys2Proof.Machine

/-! ### Patterns -/

theorem fMag_lt (x : F32) : fMag x < 2 ^ 31 := Nat.mod_lt _ (by norm_num)

@[simp] theorem fMag_fPack (neg : Bool) {m : Nat} (h : m < 2 ^ 31) : fMag (fPack neg m) = m := by
  unfold fMag fPack
  rw [BitVec.toNat_ofNat]
  cases neg <;> simp <;> omega

@[simp] theorem fSign_fPack (neg : Bool) {m : Nat} (h : m < 2 ^ 31) : fSign (fPack neg m) = neg := by
  unfold fSign fPack
  rw [BitVec.toNat_ofNat]
  cases neg <;> simp <;> omega

/-- A pattern is its sign and its magnitude. -/
theorem fPack_fSign_fMag (x : F32) : fPack (fSign x) (fMag x) = x := by
  apply BitVec.eq_of_toNat_eq
  have hx : x.toNat < 2 ^ 32 := x.isLt
  unfold fPack fSign fMag
  rw [BitVec.toNat_ofNat]
  by_cases h : 2 ^ 31 ≤ x.toNat
  · rw [decide_eq_true h, if_pos rfl]
    omega
  · rw [decide_eq_false h, if_neg Bool.false_ne_true]
    omega

theorem f32_ext {x y : F32} (hs : fSign x = fSign y) (hm : fMag x = fMag y) : x = y := by
  rw [← fPack_fSign_fMag x, ← fPack_fSign_fMag y, hs, hm]

/-- Whatever the free values are, the result of an invalid operation is a NaN (U3). -/
@[simp] theorem fIsNaN_fNaNResult (op : FOp) (a b : F32) : fIsNaN (fNaNResult op a b) = true := by
  have h := (Config.nanFraction op a b).isLt
  have hb : fInfMag + 1 + (Config.nanFraction op a b).val < 2 ^ 31 := by unfold fInfMag; omega
  unfold fIsNaN fNaNResult
  rw [fMag_fPack _ hb]
  simp only [decide_eq_true_eq]
  omega

/-! ### Rounding -/

theorem roundHalfEven_exact (n d : Nat) (hd : 0 < d) : roundHalfEven (n * d) d = n := by
  unfold roundHalfEven
  rw [Nat.mul_mod_left, Nat.mul_div_cancel _ hd]
  rw [if_neg (by omega)]

/-- The rounded quotient is the quotient or the next number. -/
theorem roundHalfEven_cases (n d : Nat) : roundHalfEven n d = n / d ∨ roundHalfEven n d = n / d + 1 := by
  unfold roundHalfEven
  split
  · exact .inr rfl
  · exact .inl rfl

/-- Twice the error of a rounded quotient is at most the divisor (R12). -/
theorem roundHalfEven_error (n : Nat) {d : Nat} (hd : 0 < d) :
    2 * (roundHalfEven n d * d) ≤ 2 * n + d ∧ 2 * n ≤ 2 * (roundHalfEven n d * d) + d := by
  have hn : n / d * d + n % d = n := by rw [Nat.mul_comm]; exact Nat.div_add_mod n d
  have hlt := Nat.mod_lt n hd
  unfold roundHalfEven
  split
  · have hm : (n / d + 1) * d = n / d * d + d := by ring
    rw [hm]
    omega
  · omega

theorem roundMag_le (num den : Nat) : roundMag num den ≤ fInfMag := Nat.min_le_right _ _

theorem roundMag_lt (num den : Nat) : roundMag num den < 2 ^ 31 := by
  have := roundMag_le num den
  unfold fInfMag at this
  omega

/-- A magnitude pattern given as a number of binary places `e` and a significand `r`. -/
theorem magUnits_scale {e r : Nat} (h : e = 0 ∨ 2 ^ 23 ≤ r) (hr : r ≤ 2 ^ 24) :
    magUnits (e * 2 ^ 23 + r) = r * 2 ^ e := by
  unfold magUnits
  by_cases hlt : r < 2 ^ 23
  · obtain rfl : e = 0 := by omega
    rw [Nat.zero_mul, Nat.zero_add, if_pos hlt, pow_zero, Nat.mul_one]
  · rw [if_neg (by omega)]
    rcases Nat.lt_or_ge r (2 ^ 24) with hr' | hr'
    · have h1 : 2 ^ 23 + (e * 2 ^ 23 + r) % 2 ^ 23 = r := by omega
      have h2 : (e * 2 ^ 23 + r) / 2 ^ 23 - 1 = e := by omega
      rw [h1, h2]
    · have h1 : 2 ^ 23 + (e * 2 ^ 23 + r) % 2 ^ 23 = 2 ^ 23 := by omega
      have h2 : (e * 2 ^ 23 + r) / 2 ^ 23 - 1 = e + 1 := by omega
      have h3 : r = 2 ^ 23 * 2 := by omega
      rw [h1, h2, h3, Nat.pow_succ 2 e, Nat.mul_assoc (2 ^ 23), Nat.mul_comm (2 ^ e)]

/-! ### Comparisons and clamps -/

theorem fLe_refl {x : F32} (h : fIsNaN x = false) : fLe x x = true := by simp [fLe, h]

theorem fLe_of_not_fLt {a b : F32} (ha : fIsNaN a = false) (hb : fIsNaN b = false)
    (h : fLt a b = false) : fLe b a = true := by
  simp only [fLt, fLe, ha, hb, Bool.not_false, Bool.true_and, decide_eq_false_iff_not,
    decide_eq_true_eq] at *
  omega

theorem fLe_notNaN {a b : F32} (h : fLe a b = true) : fIsNaN a = false ∧ fIsNaN b = false := by
  simp only [fLe, Bool.and_eq_true, Bool.not_eq_true'] at h
  exact h.1

theorem fLt_notNaN {a b : F32} (h : fLt a b = true) : fIsNaN a = false ∧ fIsNaN b = false := by
  simp only [fLt, Bool.and_eq_true, Bool.not_eq_true'] at h
  exact h.1

theorem fLe_trans {a b c : F32} (h : fLe a b = true) (h' : fLe b c = true) : fLe a c = true := by
  simp only [fLe, Bool.and_eq_true, Bool.not_eq_true', decide_eq_true_eq] at *
  exact ⟨⟨h.1.1, h'.1.2⟩, by omega⟩

/-- A clamp into a range that is not empty stays in it, whatever the pattern (R13, R27). -/
theorem inRange_clampf {lo hi : F32} (x : F32) (h : fLe lo hi = true) :
    inRange lo hi (clampf x lo hi) = true := by
  obtain ⟨hlo, hhi⟩ := fLe_notNaN h
  unfold inRange clampf
  cases hx : fIsNaN x with
  | true => simp [h, fLe_refl hlo]
  | false =>
    cases hl : fLt x lo with
    | true => simp [h, fLe_refl hlo]
    | false =>
      have h1 := fLe_of_not_fLt hx hlo hl
      cases hg : fLt hi x with
      | true => simp [fGt, hg, h, fLe_refl hhi]
      | false => simp [fGt, hg, h1, fLe_of_not_fLt hhi hx hg]

/-- A saturated integer is in its range (R13, R27). -/
theorem sati_mem (v : Int) {lo hi : Nat} (h : lo ≤ hi) : lo ≤ sati v lo hi ∧ sati v lo hi ≤ hi := by
  unfold sati
  split
  · exact ⟨Nat.le_refl _, h⟩
  · split
    · exact ⟨h, Nat.le_refl _⟩
    · omega

end Sys2Proof.Machine
end

