-- ==== Sys2Proof/Laws/Rounding.lean ====
section
/-! SUPPORT. The one rounding of the arithmetic (R12): `roundMag` gives the nearest pattern, ties to
even; it keeps an exact value and respects bounds that are themselves patterns. -/

namespace Sys2Proof.Machine

/-! ### Magnitude patterns in units of 2^-149 -/

/-- A pattern as a number of binary places `e` and a significand `r`. -/
theorem magUnits_split (m : Nat) :
    ∃ e r, m = e * 2 ^ 23 + r ∧ (e = 0 ∨ 2 ^ 23 ≤ r) ∧ r < 2 ^ 24 ∧ magUnits m = r * 2 ^ e := by
  rcases Nat.lt_or_ge m (2 ^ 23) with h | h
  · refine ⟨0, m, by omega, .inl rfl, by omega, ?_⟩
    unfold magUnits
    rw [if_pos h, pow_zero, Nat.mul_one]
  · refine ⟨m / 2 ^ 23 - 1, 2 ^ 23 + m % 2 ^ 23, by omega, .inr (by omega), by omega, ?_⟩
    unfold magUnits
    rw [if_neg (by omega)]

theorem magUnits_lt_succ (m : Nat) : magUnits m < magUnits (m + 1) := by
  obtain ⟨e, r, hm, h, hr, hu⟩ := magUnits_split m
  have hs : magUnits (m + 1) = (r + 1) * 2 ^ e := by
    rw [hm, Nat.add_assoc]
    exact magUnits_scale (by omega) (by omega)
  rw [hs, hu]
  exact Nat.mul_lt_mul_of_pos_right (by omega) (Nat.two_pow_pos e)

theorem magUnits_strictMono : StrictMono magUnits := strictMono_nat_of_lt_succ magUnits_lt_succ

theorem magUnits_le_iff {m m' : Nat} : magUnits m ≤ magUnits m' ↔ m ≤ m' := magUnits_strictMono.le_iff_le

theorem magUnits_lt_iff {m m' : Nat} : magUnits m < magUnits m' ↔ m < m' := magUnits_strictMono.lt_iff_lt

/-! ### The nearest pattern -/

/-- The unclipped rounding: a number of places, a rounded significand, and the quotient between its
neighbours. -/
theorem roundMag_split (num : Nat) {den : Nat} (hd : 0 < den) :
    ∃ e r, roundMag num den = min (e * 2 ^ 23 + r) fInfMag ∧ r ≤ 2 ^ 24
      ∧ (e = 0 ∨ (2 ^ 23 ≤ r ∧ 2 ^ 23 * 2 ^ e * den ≤ num)) ∧ num < 2 ^ 24 * 2 ^ e * den
      ∧ r = roundHalfEven num (den * 2 ^ e) := by
  refine ⟨Nat.log2 (num / den) - 23, _, rfl, ?_, ?_, ?_, rfl⟩
  all_goals
    generalize he : Nat.log2 (num / den) - 23 = e
    have hpe : 0 < 2 ^ e := Nat.two_pow_pos e
    have hD : 0 < den * 2 ^ e := Nat.mul_pos hd hpe
    have hup : num / den < 2 ^ (24 + e) := by
      refine lt_of_lt_of_le Nat.lt_log2_self (Nat.pow_le_pow_right (by norm_num) (by omega))
    have hup' : num < 2 ^ 24 * 2 ^ e * den := by
      rw [← pow_add]
      exact (Nat.div_lt_iff_lt_mul hd).1 hup
    have hq : num / (den * 2 ^ e) < 2 ^ 24 := by
      rw [Nat.div_lt_iff_lt_mul hD]
      calc num < 2 ^ 24 * 2 ^ e * den := hup'
        _ = 2 ^ 24 * (den * 2 ^ e) := by ring
  · rcases roundHalfEven_cases num (den * 2 ^ e) with h | h <;> omega
  · rcases Nat.eq_zero_or_pos e with h0 | h0
    · exact .inl h0
    · right
      have hne : num / den ≠ 0 := by
        rintro h; rw [h] at he; simp at he; omega
      have hlow : 2 ^ (23 + e) ≤ num / den := by
        have : Nat.log2 (num / den) = 23 + e := by omega
        rw [← this]
        exact Nat.log2_self_le hne
      have hlow' : 2 ^ 23 * 2 ^ e * den ≤ num := by
        rw [← pow_add]
        exact (Nat.le_div_iff_mul_le hd).1 hlow
      have hq2 : 2 ^ 23 ≤ num / (den * 2 ^ e) := by
        rw [Nat.le_div_iff_mul_le hD]
        calc 2 ^ 23 * (den * 2 ^ e) = 2 ^ 23 * 2 ^ e * den := by ring
          _ ≤ num := hlow'
      refine ⟨?_, hlow'⟩
      rcases roundHalfEven_cases num (den * 2 ^ e) with h | h <;> omega
  · exact hup'

/-- The rounded quotient is the nearest whole number of divisors, even where two are equally near. -/
theorem roundHalfEven_nearest (n : Nat) {d : Nat} (hd : 0 < d) (j : Nat) :
    ((roundHalfEven n d * d : Int) - n).natAbs ≤ ((j * d : Int) - n).natAbs
      ∧ (((roundHalfEven n d * d : Int) - n).natAbs = ((j * d : Int) - n).natAbs →
          j = roundHalfEven n d ∨ roundHalfEven n d % 2 = 0) := by
  have hn : n / d * d + n % d = n := by rw [Nat.mul_comm]; exact Nat.div_add_mod n d
  have hlt := Nat.mod_lt n hd
  have hlow : ∀ j, j ≤ n / d → j * d ≤ n / d * d := fun j h => Nat.mul_le_mul_right d h
  have hlow' : ∀ j, j < n / d → j * d + d ≤ n / d * d := fun j h => by
    have := Nat.mul_le_mul_right d (Nat.succ_le_of_lt h); rwa [Nat.succ_mul] at this
  have hhigh : ∀ j, n / d < j → n / d * d + d ≤ j * d := fun j h => by
    have := Nat.mul_le_mul_right d (Nat.succ_le_of_lt h); rwa [Nat.succ_mul] at this
  have hhigh' : ∀ j, n / d + 1 < j → n / d * d + d + d ≤ j * d := fun j h => by
    have := Nat.mul_le_mul_right d (Nat.succ_le_of_lt h)
    rw [Nat.succ_mul, Nat.add_mul, Nat.one_mul] at this
    exact this
  have hs : (n / d + 1) * d = n / d * d + d := by rw [Nat.add_mul, Nat.one_mul]
  have hcast : ∀ k : Nat, ((k : Int) * (d : Int)) = ((k * d : Nat) : Int) := fun k => by push_cast; rfl
  rw [hcast, hcast]
  unfold roundHalfEven
  rcases Nat.lt_trichotomy j (n / d) with h | h | h
  · have h1 := hlow' j h
    split <;> (try rw [hs]) <;> generalize n / d * d = q at * <;> generalize j * d = p at * <;> omega
  · subst h
    split <;> (try rw [hs]) <;> generalize n / d * d = q at * <;> omega
  · have h1 := hhigh j h
    rcases Nat.lt_or_ge (n / d + 1) j with h2 | h2
    · have h3 := hhigh' j h2
      split <;> (try rw [hs]) <;> generalize n / d * d = q at * <;> generalize j * d = p at * <;> omega
    · have h3 : j = n / d + 1 := by omega
      subst h3
      rw [hs]
      split <;> (try rw [hs]) <;> generalize n / d * d = q at * <;> omega

/-- `roundMag` gives the nearest pattern, ties to even (R12). -/
theorem roundMag_nearest (num : Nat) {den : Nat} (hd : 0 < den) :
    NearestMag num den (roundMag num den) := by
  obtain ⟨e, r, hm, hr24, hlow, -, hr⟩ := roundMag_split num hd
  have hpe : 0 < 2 ^ e := Nat.two_pow_pos e
  have hD : 0 < den * 2 ^ e := Nat.mul_pos hd hpe
  have hu : magUnits (e * 2 ^ 23 + r) = r * 2 ^ e := magUnits_scale (by omega) hr24
  have hnear : ∀ m', magError num den (e * 2 ^ 23 + r) ≤ magError num den m'
      ∧ (magError num den (e * 2 ^ 23 + r) = magError num den m' →
          m' = e * 2 ^ 23 + r ∨ (e * 2 ^ 23 + r) % 2 = 0) := by
    intro m'
    obtain ⟨e', r', hm', hs', hr', hu'⟩ := magUnits_split m'
    have hE : magError num den (e * 2 ^ 23 + r)
        = ((roundHalfEven num (den * 2 ^ e) * (den * 2 ^ e : Nat) : Int) - num).natAbs := by
      unfold magError
      rw [hu, ← hr]
      congr 2
      push_cast
      ring
    rcases Nat.lt_or_ge e' e with hlt | hge
    · have hl : 2 ^ 23 * 2 ^ e * den ≤ num := by omega
      have hv : magUnits m' * den < 2 ^ 23 * 2 ^ e * den := by
        refine Nat.mul_lt_mul_of_pos_right ?_ hd
        rw [hu']
        calc r' * 2 ^ e' < 2 ^ 24 * 2 ^ e' := Nat.mul_lt_mul_of_pos_right hr' (Nat.two_pow_pos e')
          _ = 2 ^ 23 * 2 ^ (e' + 1) := by rw [pow_succ 2 e']; ring
          _ ≤ 2 ^ 23 * 2 ^ e := Nat.mul_le_mul_left _ (Nat.pow_le_pow_right (by norm_num) hlt)
      have hj := (roundHalfEven_nearest num hD (2 ^ 23)).1
      have e1 : ((2 ^ 23 : Nat) : Int) * ((den * 2 ^ e : Nat) : Int) = ((2 ^ 23 * 2 ^ e * den : Nat) : Int) := by
        push_cast; ring
      have e2 : magError num den m' = (((magUnits m' * den : Nat) : Int) - num).natAbs := by
        unfold magError; push_cast; rfl
      rw [e1, ← hE] at hj
      rw [e2]
      generalize magUnits m' * den = v at *
      generalize 2 ^ 23 * 2 ^ e * den = w at *
      omega
    · have e2 : magError num den m'
          = (((r' * 2 ^ (e' - e) : Nat) * (den * 2 ^ e : Nat) : Int) - num).natAbs := by
        unfold magError
        have : magUnits m' = r' * 2 ^ (e' - e) * 2 ^ e := by
          rw [hu', Nat.mul_assoc, ← pow_add, Nat.sub_add_cancel hge]
        rw [this]
        congr 2
        push_cast
        ring
      have hj := roundHalfEven_nearest num hD (r' * 2 ^ (e' - e))
      rw [← hE, ← e2] at hj
      refine ⟨hj.1, fun heq => ?_⟩
      rcases hj.2 heq with h | h
      · left
        refine magUnits_strictMono.injective ?_
        rw [hu, hr, ← h, hu', Nat.mul_assoc, ← pow_add, Nat.sub_add_cancel hge]
      · right
        rw [← hr] at h
        omega
  rw [hm]
  rcases Nat.lt_or_ge fInfMag (e * 2 ^ 23 + r) with hinf | hinf
  · rw [Nat.min_eq_right (le_of_lt hinf)]
    refine ⟨le_refl _, fun m' hle => ?_⟩
    have h0 := (hnear fInfMag).1
    have h1 : magUnits fInfMag * den < magUnits (e * 2 ^ 23 + r) * den :=
      Nat.mul_lt_mul_of_pos_right (magUnits_lt_iff.2 hinf) hd
    have h2 : m' ≠ fInfMag → magUnits m' * den < magUnits fInfMag * den := fun hne =>
      Nat.mul_lt_mul_of_pos_right (magUnits_lt_iff.2 (by omega)) hd
    have hc : ∀ k, magError num den k = (((magUnits k * den : Nat) : Int) - num).natAbs := fun k => by
      unfold magError; push_cast; rfl
    by_cases hne : m' = fInfMag
    · rw [hne]; exact ⟨le_refl _, fun _ => .inl rfl⟩
    · have h3 := h2 hne
      rw [hc, hc] at h0
      rw [hc, hc]
      generalize magUnits m' * den = a at *
      generalize magUnits fInfMag * den = b at *
      generalize magUnits (e * 2 ^ 23 + r) * den = c at *
      omega
  · rw [Nat.min_eq_left hinf]
    exact ⟨hinf, fun m' _ => hnear m'⟩

/-- A value that is a pattern is not changed by the rounding. -/
theorem roundMag_exact {num den m : Nat} (hd : 0 < den) (hm : m ≤ fInfMag) (h : num = magUnits m * den) :
    roundMag num den = m := by
  obtain ⟨hle, hn⟩ := roundMag_nearest num hd
  have h1 := (hn m hm).1
  have h0 : magError num den m = 0 := by unfold magError; rw [h]; push_cast; omega
  rw [h0] at h1
  have h2 : ((magUnits (roundMag num den) * den : Int) - num).natAbs = 0 := by
    unfold magError at h1; omega
  refine magUnits_strictMono.injective (Nat.eq_of_mul_eq_mul_right hd ?_)
  rw [← h]
  have h3 : ((magUnits (roundMag num den) * den : Nat) : Int) = (num : Int) := by push_cast; omega
  exact_mod_cast h3

/-- A value at most a pattern rounds to at most that pattern. -/
theorem roundMag_le_of_le {num den m : Nat} (hd : 0 < den) (hm : m ≤ fInfMag) (h : num ≤ magUnits m * den) :
    roundMag num den ≤ m := by
  obtain ⟨hle, hn⟩ := roundMag_nearest num hd
  by_contra hlt
  have h1 := (hn m hm).1
  have h2 : magUnits m * den < magUnits (roundMag num den) * den :=
    Nat.mul_lt_mul_of_pos_right (magUnits_lt_iff.2 (by omega)) hd
  have hc : ∀ k, magError num den k = (((magUnits k * den : Nat) : Int) - num).natAbs := fun k => by
    unfold magError; push_cast; rfl
  rw [hc, hc] at h1
  generalize magUnits m * den = a at *
  generalize magUnits (roundMag num den) * den = b at *
  omega

/-- A value at least a pattern rounds to at least that pattern. -/
theorem roundMag_ge_of_ge {num den m : Nat} (hd : 0 < den) (hm : m ≤ fInfMag) (h : magUnits m * den ≤ num) :
    m ≤ roundMag num den := by
  obtain ⟨hle, hn⟩ := roundMag_nearest num hd
  by_contra hlt
  have h1 := (hn m hm).1
  have h2 : magUnits (roundMag num den) * den < magUnits m * den :=
    Nat.mul_lt_mul_of_pos_right (magUnits_lt_iff.2 (by omega)) hd
  have hc : ∀ k, magError num den k = (((magUnits k * den : Nat) : Int) - num).natAbs := fun k => by
    unfold magError; push_cast; rfl
  rw [hc, hc] at h1
  generalize magUnits m * den = a at *
  generalize magUnits (roundMag num den) * den = b at *
  omega

/-- A whole number up to 2^24 is the value of a finite pattern (R13). -/
theorem magUnits_ofNat {n : Nat} (h : n ≤ 2 ^ 24) : ∃ m, m < fInfMag ∧ magUnits m = n * 2 ^ 149 := by
  rcases Nat.eq_zero_or_pos n with rfl | hp
  · exact ⟨0, by decide, by unfold magUnits; norm_num⟩
  rcases Nat.lt_or_ge n (2 ^ 24) with hlt | hge
  · have hk : Nat.log2 n ≤ 23 := by
      have := (Nat.log2_lt (n := n) (k := 24) (by omega)).2 hlt
      omega
    have hs := Nat.log2_self_le (n := n) (by omega)
    have hl := Nat.lt_log2_self (n := n)
    generalize Nat.log2 n = k at *
    obtain ⟨j, hj⟩ : ∃ j, 23 = k + j := ⟨23 - k, by omega⟩
    have hpow : (2 : Nat) ^ 23 = 2 ^ k * 2 ^ j := by rw [hj, pow_add]
    have h1 : 2 ^ 23 ≤ n * 2 ^ j := by rw [hpow]; exact Nat.mul_le_mul_right _ hs
    have h2 : n * 2 ^ j < 2 ^ 24 := by
      have : n * 2 ^ j < 2 ^ (k + 1) * 2 ^ j := Nat.mul_lt_mul_of_pos_right hl (Nat.two_pow_pos j)
      rw [pow_succ] at this
      calc n * 2 ^ j < 2 ^ k * 2 * 2 ^ j := this
        _ = 2 * (2 ^ k * 2 ^ j) := by ring
        _ = 2 ^ 24 := by rw [← hpow]; norm_num
    refine ⟨(126 + k) * 2 ^ 23 + n * 2 ^ j, by unfold fInfMag; omega, ?_⟩
    rw [magUnits_scale (.inr h1) (le_of_lt h2), Nat.mul_assoc, ← pow_add]
    congr 2
    omega
  · obtain rfl : n = 2 ^ 24 := by omega
    refine ⟨150 * 2 ^ 23 + 2 ^ 23, by decide, ?_⟩
    rw [magUnits_scale (.inr (le_refl _)) (by norm_num), ← pow_add, ← pow_add]

end Sys2Proof.Machine
end

