-- ==== Sys2Proof/Laws/Arithmetic.lean ====
section
/-! SUPPORT. The four operations on finite operands: bounds, exact results, units and zeros. -/

namespace Sys2Proof.Machine

/-! ### Finite patterns -/

theorem fIsFinite_iff {x : F32} : fIsFinite x = true ↔ fMag x < fInfMag := by simp [fIsFinite]

theorem not_nan_of_finite {x : F32} (h : fIsFinite x = true) : fIsNaN x = false := by
  rw [fIsFinite_iff] at h
  simp [fIsNaN]
  omega

theorem not_inf_of_finite {x : F32} (h : fIsFinite x = true) : fIsInf x = false := by
  rw [fIsFinite_iff] at h
  simp [fIsInf]
  omega

theorem magUnits_zero : magUnits 0 = 0 := by unfold magUnits; norm_num

theorem fUnits_eq_zero {x : F32} : fUnits x = 0 ↔ fMag x = 0 := by
  unfold fUnits
  rw [← magUnits_zero]
  exact magUnits_strictMono.injective.eq_iff

theorem fUnits_le_iff {x y : F32} : fUnits x ≤ fUnits y ↔ fMag x ≤ fMag y := magUnits_le_iff

@[simp] theorem fIsFinite_fPack (neg : Bool) {m : Nat} (h : m < fInfMag) :
    fIsFinite (fPack neg m) = true := by
  rw [fIsFinite_iff, fMag_fPack neg (by unfold fInfMag at h; omega)]
  exact h

/-- No operation that rounds gives a NaN. -/
theorem fPack_not_nan (neg : Bool) {m : Nat} (h : m ≤ fInfMag) : fIsNaN (fPack neg m) = false := by
  unfold fIsNaN
  rw [fMag_fPack neg (by unfold fInfMag at h; omega)]
  simpa using h

/-- The order of values is the order of keys. -/
theorem fInt_le_iff {x y : F32} : fInt x ≤ fInt y ↔ fKey x ≤ fKey y := by
  unfold fInt fKey
  have h1 := @fUnits_le_iff x y
  have h2 := @fUnits_le_iff y x
  have h3 := @fUnits_eq_zero x
  have h4 := @fUnits_eq_zero y
  cases fSign x <;> cases fSign y <;> simp <;> omega

theorem fInt_eq_iff {x y : F32} : fInt x = fInt y ↔ fKey x = fKey y := by
  have h1 := @fInt_le_iff x y
  have h2 := @fInt_le_iff y x
  omega

theorem fLe_iff {x y : F32} (hx : fIsNaN x = false) (hy : fIsNaN y = false) :
    fLe x y = true ↔ fInt x ≤ fInt y := by
  simp [fLe, hx, hy, fInt_le_iff]

theorem fLt_iff {x y : F32} (hx : fIsNaN x = false) (hy : fIsNaN y = false) :
    fLt x y = true ↔ fInt x < fInt y := by
  have := @fInt_le_iff y x
  simp [fLt, hx, hy]
  omega

/-- A finite pattern lies between two finite ones if its key does. -/
theorem finite_of_between {lo x hi : F32} (h : fLe lo x = true) (h' : fLe x hi = true)
    (hlo : fIsFinite lo = true) (hhi : fIsFinite hi = true) : fIsFinite x = true := by
  simp only [fLe, Bool.and_eq_true, Bool.not_eq_true', decide_eq_true_eq] at h h'
  rw [fIsFinite_iff] at *
  have h1 := h.2
  have h2 := h'.2
  unfold fKey at h1 h2
  split at h1 <;> split at h1 <;> split at h2 <;> simp_all <;> omega

/-! ### Negation -/

theorem fNeg_eq (x : F32) : fNeg x = fPack (!fSign x) (fMag x) := by
  apply BitVec.eq_of_toNat_eq
  have hx : x.toNat < 2 ^ 32 := x.isLt
  unfold fNeg fPack fSign fMag
  have hc : (0x80000000#32).toNat = 2 ^ 31 := by decide
  rw [BitVec.toNat_xor, hc, BitVec.toNat_ofNat]
  have hxor : x.toNat ^^^ 2 ^ 31 = if 2 ^ 31 ≤ x.toNat then x.toNat - 2 ^ 31 else x.toNat + 2 ^ 31 := by
    have hdiv : x.toNat = 2 ^ 31 * (x.toNat / 2 ^ 31) + x.toNat % 2 ^ 31 := (Nat.div_add_mod _ _).symm
    have hlt : x.toNat % 2 ^ 31 < 2 ^ 31 := Nat.mod_lt _ (by norm_num)
    apply Nat.eq_of_testBit_eq
    intro i
    rw [Nat.testBit_xor, Nat.testBit_two_pow]
    split
    · rename_i h
      have h2 : x.toNat - 2 ^ 31 = x.toNat % 2 ^ 31 := by omega
      rw [h2, Nat.testBit_mod_two_pow]
      rcases Nat.lt_trichotomy i 31 with h3 | h3 | h3
      · have h4 : ¬ 31 = i := by omega
        simp [h3, h4]
      · subst h3
        have : x.toNat.testBit 31 = true := by
          rw [Nat.testBit_eq_decide_div_mod_eq]
          simp
          omega
        simp [this]
      · have h4 : ¬ 31 = i := by omega
        have h5 : ¬ i < 31 := by omega
        have : x.toNat.testBit i = false := Nat.testBit_lt_two_pow
          (lt_of_lt_of_le hx (Nat.pow_le_pow_right (by norm_num) (by omega)))
        rw [this, decide_eq_false h4, decide_eq_false h5]
        rfl
    · rename_i h
      have h2 : x.toNat + 2 ^ 31 = 2 ^ 31 * 1 + x.toNat := by omega
      rw [h2, Nat.testBit_two_pow_mul_add 1 (by omega : x.toNat < 2 ^ 31)]
      rcases Nat.lt_trichotomy i 31 with h3 | h3 | h3
      · have h4 : ¬ 31 = i := by omega
        simp [h3, h4]
      · subst h3
        have : x.toNat.testBit 31 = false := Nat.testBit_lt_two_pow (by omega)
        simp [this]
      · have h4 : ¬ 31 = i := by omega
        have : x.toNat.testBit i = false := Nat.testBit_lt_two_pow
          (lt_of_lt_of_le hx (Nat.pow_le_pow_right (by norm_num) (by omega)))
        have h5 : Nat.testBit 1 (i - 31) = false :=
          Nat.testBit_lt_two_pow (Nat.one_lt_two_pow (by omega))
        rw [this, decide_eq_false h4, if_neg (by omega), h5]
        rfl
  rw [hxor]
  by_cases h : 2 ^ 31 ≤ x.toNat
  · simp only [h, if_true, decide_true, Bool.not_true, Bool.false_eq_true, if_false]
    omega
  · simp only [h, if_false, decide_false, Bool.not_false, if_true]
    omega

@[simp] theorem fMag_fNeg (x : F32) : fMag (fNeg x) = fMag x := by
  rw [fNeg_eq, fMag_fPack _ (fMag_lt x)]

@[simp] theorem fSign_fNeg (x : F32) : fSign (fNeg x) = !fSign x := by
  rw [fNeg_eq, fSign_fPack _ (fMag_lt x)]

@[simp] theorem fInt_fNeg (x : F32) : fInt (fNeg x) = -fInt x := by
  unfold fInt fUnits
  rw [fMag_fNeg, fSign_fNeg]
  cases fSign x <;> simp

@[simp] theorem fIsFinite_fNeg (x : F32) : fIsFinite (fNeg x) = fIsFinite x := by simp [fIsFinite]

@[simp] theorem fIsNaN_fNeg (x : F32) : fIsNaN (fNeg x) = fIsNaN x := by simp [fIsNaN]

/-! ### Sums -/

theorem fAdd_finite {a b : F32} (ha : fIsFinite a = true) (hb : fIsFinite b = true) :
    fAdd a b = fAddFinite a b := by
  simp [fAdd, fSumWith, not_nan_of_finite ha, not_nan_of_finite hb, not_inf_of_finite ha,
    not_inf_of_finite hb]

theorem fSub_finite {a b : F32} (ha : fIsFinite a = true) (hb : fIsFinite b = true) :
    fSub a b = fAddFinite a (fNeg b) := by
  have hb' : fIsFinite (fNeg b) = true := by simpa using hb
  simp [fSub, fSumWith, not_nan_of_finite ha, not_nan_of_finite hb', not_inf_of_finite ha,
    not_inf_of_finite hb']

theorem fAddFinite_not_nan (a b : F32) : fIsNaN (fAddFinite a b) = false := by
  unfold fAddFinite
  split
  · exact fPack_not_nan _ (by unfold fInfMag; omega)
  · exact fPack_not_nan _ (roundMag_le _ _)

theorem fInt_fPack (neg : Bool) {m : Nat} (h : m < 2 ^ 31) :
    fInt (fPack neg m) = if neg then -(magUnits m : Int) else (magUnits m : Int) := by
  unfold fInt fUnits
  rw [fMag_fPack _ h, fSign_fPack _ h]

/-- A rounded sum is at most a finite pattern that the exact sum is at most. -/
theorem fInt_fAddFinite_le {a b y : F32} (hy : fIsFinite y = true) (h : fInt a + fInt b ≤ fInt y) :
    fInt (fAddFinite a b) ≤ fInt y := by
  have hym := le_of_lt (fIsFinite_iff.1 hy)
  unfold fAddFinite
  split
  · rename_i h0
    rw [fInt_fPack _ (by norm_num), magUnits_zero]
    split <;> simp <;> omega
  · rename_i h0
    rw [fInt_fPack _ (roundMag_lt _ _)]
    by_cases hneg : fInt a + fInt b < 0
    · rw [decide_eq_true hneg, if_pos rfl]
      by_cases hys : fSign y = true
      · have hyv : fInt y = -(magUnits (fMag y) : Int) := by unfold fInt fUnits; rw [hys, if_pos rfl]
        have := roundMag_ge_of_ge (num := (fInt a + fInt b).natAbs) Nat.one_pos hym (by omega)
        have := magUnits_le_iff.2 this
        omega
      · have hyv : fInt y = (magUnits (fMag y) : Int) := by unfold fInt fUnits; rw [if_neg hys]
        omega
    · rw [decide_eq_false hneg, if_neg Bool.false_ne_true]
      by_cases hys : fSign y = true
      · have hyv : fInt y = -(magUnits (fMag y) : Int) := by unfold fInt fUnits; rw [hys, if_pos rfl]
        omega
      · have hyv : fInt y = (magUnits (fMag y) : Int) := by unfold fInt fUnits; rw [if_neg hys]
        have := roundMag_le_of_le (num := (fInt a + fInt b).natAbs) Nat.one_pos hym (by omega)
        have := magUnits_le_iff.2 this
        omega

/-- A rounded sum is at least a finite pattern that the exact sum is at least. -/
theorem fInt_fAddFinite_ge {a b y : F32} (hy : fIsFinite y = true) (h : fInt y ≤ fInt a + fInt b) :
    fInt y ≤ fInt (fAddFinite a b) := by
  have hym := le_of_lt (fIsFinite_iff.1 hy)
  unfold fAddFinite
  split
  · rename_i h0
    rw [fInt_fPack _ (by norm_num), magUnits_zero]
    split <;> simp <;> omega
  · rename_i h0
    rw [fInt_fPack _ (roundMag_lt _ _)]
    by_cases hneg : fInt a + fInt b < 0
    · rw [decide_eq_true hneg, if_pos rfl]
      by_cases hys : fSign y = true
      · have hyv : fInt y = -(magUnits (fMag y) : Int) := by unfold fInt fUnits; rw [hys, if_pos rfl]
        have := roundMag_le_of_le (num := (fInt a + fInt b).natAbs) Nat.one_pos hym (by omega)
        have := magUnits_le_iff.2 this
        omega
      · have hyv : fInt y = (magUnits (fMag y) : Int) := by unfold fInt fUnits; rw [if_neg hys]
        omega
    · rw [decide_eq_false hneg, if_neg Bool.false_ne_true]
      by_cases hys : fSign y = true
      · have hyv : fInt y = -(magUnits (fMag y) : Int) := by unfold fInt fUnits; rw [hys, if_pos rfl]
        omega
      · have hyv : fInt y = (magUnits (fMag y) : Int) := by unfold fInt fUnits; rw [if_neg hys]
        have := roundMag_ge_of_ge (num := (fInt a + fInt b).natAbs) Nat.one_pos hym (by omega)
        have := magUnits_le_iff.2 this
        omega

/-- A sum that is a finite pattern is exact. -/
theorem fInt_fAddFinite_exact {a b y : F32} (hy : fIsFinite y = true) (h : fInt a + fInt b = fInt y) :
    fInt (fAddFinite a b) = fInt y :=
  le_antisymm (fInt_fAddFinite_le hy (le_of_eq h)) (fInt_fAddFinite_ge hy (le_of_eq h.symm))

/-! ### Products -/

theorem fMul_finite {a b : F32} (ha : fIsFinite a = true) (hb : fIsFinite b = true) :
    fMul a b = fPack (fSign a != fSign b) (roundMag (fUnits a * fUnits b) (2 ^ 149)) := by
  simp [fMul, not_nan_of_finite ha, not_nan_of_finite hb, not_inf_of_finite ha, not_inf_of_finite hb]

theorem fUnits_fOne : fUnits fOne = 2 ^ 149 := by decide

/-- One is the unit of multiplication. -/
theorem fMul_fOne {a : F32} (ha : fIsFinite a = true) : fMul a fOne = a := by
  have h1 : fIsFinite fOne = true := by decide
  rw [fMul_finite ha h1, fUnits_fOne,
    roundMag_exact (m := fMag a) (num := fUnits a * 2 ^ 149) (by positivity)
      (le_of_lt (fIsFinite_iff.1 ha)) rfl]
  have : fSign fOne = false := by decide
  rw [this]
  simpa using fPack_fSign_fMag a

theorem fOne_fMul {a : F32} (ha : fIsFinite a = true) : fMul fOne a = a := by
  have h1 : fIsFinite fOne = true := by decide
  rw [fMul_finite h1 ha, fUnits_fOne, Nat.mul_comm,
    roundMag_exact (m := fMag a) (num := fUnits a * 2 ^ 149) (by positivity)
      (le_of_lt (fIsFinite_iff.1 ha)) rfl]
  have : fSign fOne = false := by decide
  rw [this]
  simpa using fPack_fSign_fMag a

/-- A product with a zero is a zero. -/
theorem fMag_fMul_zero {a b : F32} (ha : fIsFinite a = true) (hb : fIsFinite b = true)
    (h : fMag a = 0 ∨ fMag b = 0) : fMag (fMul a b) = 0 := by
  rw [fMul_finite ha hb]
  have h0 : fUnits a * fUnits b = 0 := by
    rcases h with h | h <;> rw [fUnits_eq_zero.2 h] <;> simp
  rw [h0, roundMag_exact (m := 0) (by positivity) (Nat.zero_le _) (by rw [magUnits_zero]; simp)]
  exact fMag_fPack _ (by norm_num)

/-- A product with a factor of magnitude at most one is not larger. -/
theorem fMag_fMul_le {a b : F32} (ha : fIsFinite a = true) (hb : fIsFinite b = true)
    (h : fUnits b ≤ 2 ^ 149) : fMag (fMul a b) ≤ fMag a := by
  rw [fMul_finite ha hb, fMag_fPack _ (roundMag_lt _ _)]
  refine roundMag_le_of_le (by positivity) (le_of_lt (fIsFinite_iff.1 ha)) ?_
  exact Nat.mul_le_mul_left _ h

end Sys2Proof.Machine
end

