-- ==== Sys2Proof/Laws/State.lean ====
section
/-! SUPPORT. One lemma for each field of the state under each named update, true by `rfl`: a proof about
a command never unfolds a record update. -/

namespace Sys2Proof.Machine

variable (s : State)

/-! ### `B[i][n] <- v` -/

@[simp] theorem writeSample_cfg (i n : Nat) (v : F32) : (writeSample s i n v).cfg = s.cfg := rfl
@[simp] theorem writeSample_host (i n : Nat) (v : F32) : (writeSample s i n v).host = s.host := rfl
@[simp] theorem writeSample_cmdPort (i n : Nat) (v : F32) : (writeSample s i n v).cmdPort = s.cmdPort := rfl
@[simp] theorem writeSample_hostData (i n : Nat) (v : F32) : (writeSample s i n v).hostData = s.hostData := rfl
@[simp] theorem writeSample_resets (i n : Nat) (v : F32) : (writeSample s i n v).resets = s.resets := rfl
@[simp] theorem writeSample_blocks (i n : Nat) (v : F32) : (writeSample s i n v).blocks = wordPut s.blocks (blockIndex s.cfg i n) v := rfl
@[simp] theorem writeSample_octmul (i n : Nat) (v : F32) : (writeSample s i n v).octmul = s.octmul := rfl
@[simp] theorem writeSample_gpm (i n : Nat) (v : F32) : (writeSample s i n v).gpm = s.gpm := rfl
@[simp] theorem writeSample_osc (i n : Nat) (v : F32) : (writeSample s i n v).osc = s.osc := rfl
@[simp] theorem writeSample_flt (i n : Nat) (v : F32) : (writeSample s i n v).flt = s.flt := rfl
@[simp] theorem writeSample_env (i n : Nat) (v : F32) : (writeSample s i n v).env = s.env := rfl
@[simp] theorem writeSample_dly (i n : Nat) (v : F32) : (writeSample s i n v).dly = s.dly := rfl
@[simp] theorem writeSample_cmb (i n : Nat) (v : F32) : (writeSample s i n v).cmb = s.cmb := rfl
@[simp] theorem writeSample_apf (i n : Nat) (v : F32) : (writeSample s i n v).apf = s.apf := rfl
@[simp] theorem writeSample_rev (i n : Nat) (v : F32) : (writeSample s i n v).rev = s.rev := rfl
@[simp] theorem writeSample_pha (i n : Nat) (v : F32) : (writeSample s i n v).pha = s.pha := rfl
@[simp] theorem writeSample_vib (i n : Nat) (v : F32) : (writeSample s i n v).vib = s.vib := rfl
@[simp] theorem writeSample_trm (i n : Nat) (v : F32) : (writeSample s i n v).trm = s.trm := rfl
@[simp] theorem writeSample_psh (i n : Nat) (v : F32) : (writeSample s i n v).psh = s.psh := rfl
@[simp] theorem writeSample_status (i n : Nat) (v : F32) : (writeSample s i n v).status = s.status := rfl
@[simp] theorem writeSample_faultcw (i n : Nat) (v : F32) : (writeSample s i n v).faultcw = s.faultcw := rfl
@[simp] theorem writeSample_resp (i n : Nat) (v : F32) : (writeSample s i n v).resp = s.resp := rfl

/-! ### One instance of `OSC` -/

@[simp] theorem putOsc_cfg (i : Nat) (u : Osc) : (putOsc s i u).cfg = s.cfg := rfl
@[simp] theorem putOsc_host (i : Nat) (u : Osc) : (putOsc s i u).host = s.host := rfl
@[simp] theorem putOsc_cmdPort (i : Nat) (u : Osc) : (putOsc s i u).cmdPort = s.cmdPort := rfl
@[simp] theorem putOsc_hostData (i : Nat) (u : Osc) : (putOsc s i u).hostData = s.hostData := rfl
@[simp] theorem putOsc_resets (i : Nat) (u : Osc) : (putOsc s i u).resets = s.resets := rfl
@[simp] theorem putOsc_blocks (i : Nat) (u : Osc) : (putOsc s i u).blocks = s.blocks := rfl
@[simp] theorem putOsc_octmul (i : Nat) (u : Osc) : (putOsc s i u).octmul = s.octmul := rfl
@[simp] theorem putOsc_gpm (i : Nat) (u : Osc) : (putOsc s i u).gpm = s.gpm := rfl
@[simp] theorem putOsc_osc (i : Nat) (u : Osc) : (putOsc s i u).osc = s.osc.set i u := rfl
@[simp] theorem putOsc_flt (i : Nat) (u : Osc) : (putOsc s i u).flt = s.flt := rfl
@[simp] theorem putOsc_env (i : Nat) (u : Osc) : (putOsc s i u).env = s.env := rfl
@[simp] theorem putOsc_dly (i : Nat) (u : Osc) : (putOsc s i u).dly = s.dly := rfl
@[simp] theorem putOsc_cmb (i : Nat) (u : Osc) : (putOsc s i u).cmb = s.cmb := rfl
@[simp] theorem putOsc_apf (i : Nat) (u : Osc) : (putOsc s i u).apf = s.apf := rfl
@[simp] theorem putOsc_rev (i : Nat) (u : Osc) : (putOsc s i u).rev = s.rev := rfl
@[simp] theorem putOsc_pha (i : Nat) (u : Osc) : (putOsc s i u).pha = s.pha := rfl
@[simp] theorem putOsc_vib (i : Nat) (u : Osc) : (putOsc s i u).vib = s.vib := rfl
@[simp] theorem putOsc_trm (i : Nat) (u : Osc) : (putOsc s i u).trm = s.trm := rfl
@[simp] theorem putOsc_psh (i : Nat) (u : Osc) : (putOsc s i u).psh = s.psh := rfl
@[simp] theorem putOsc_status (i : Nat) (u : Osc) : (putOsc s i u).status = s.status := rfl
@[simp] theorem putOsc_faultcw (i : Nat) (u : Osc) : (putOsc s i u).faultcw = s.faultcw := rfl
@[simp] theorem putOsc_resp (i : Nat) (u : Osc) : (putOsc s i u).resp = s.resp := rfl

/-! ### One instance of `FLT` -/

@[simp] theorem putFlt_cfg (i : Nat) (u : Flt) : (putFlt s i u).cfg = s.cfg := rfl
@[simp] theorem putFlt_host (i : Nat) (u : Flt) : (putFlt s i u).host = s.host := rfl
@[simp] theorem putFlt_cmdPort (i : Nat) (u : Flt) : (putFlt s i u).cmdPort = s.cmdPort := rfl
@[simp] theorem putFlt_hostData (i : Nat) (u : Flt) : (putFlt s i u).hostData = s.hostData := rfl
@[simp] theorem putFlt_resets (i : Nat) (u : Flt) : (putFlt s i u).resets = s.resets := rfl
@[simp] theorem putFlt_blocks (i : Nat) (u : Flt) : (putFlt s i u).blocks = s.blocks := rfl
@[simp] theorem putFlt_octmul (i : Nat) (u : Flt) : (putFlt s i u).octmul = s.octmul := rfl
@[simp] theorem putFlt_gpm (i : Nat) (u : Flt) : (putFlt s i u).gpm = s.gpm := rfl
@[simp] theorem putFlt_osc (i : Nat) (u : Flt) : (putFlt s i u).osc = s.osc := rfl
@[simp] theorem putFlt_flt (i : Nat) (u : Flt) : (putFlt s i u).flt = s.flt.set i u := rfl
@[simp] theorem putFlt_env (i : Nat) (u : Flt) : (putFlt s i u).env = s.env := rfl
@[simp] theorem putFlt_dly (i : Nat) (u : Flt) : (putFlt s i u).dly = s.dly := rfl
@[simp] theorem putFlt_cmb (i : Nat) (u : Flt) : (putFlt s i u).cmb = s.cmb := rfl
@[simp] theorem putFlt_apf (i : Nat) (u : Flt) : (putFlt s i u).apf = s.apf := rfl
@[simp] theorem putFlt_rev (i : Nat) (u : Flt) : (putFlt s i u).rev = s.rev := rfl
@[simp] theorem putFlt_pha (i : Nat) (u : Flt) : (putFlt s i u).pha = s.pha := rfl
@[simp] theorem putFlt_vib (i : Nat) (u : Flt) : (putFlt s i u).vib = s.vib := rfl
@[simp] theorem putFlt_trm (i : Nat) (u : Flt) : (putFlt s i u).trm = s.trm := rfl
@[simp] theorem putFlt_psh (i : Nat) (u : Flt) : (putFlt s i u).psh = s.psh := rfl
@[simp] theorem putFlt_status (i : Nat) (u : Flt) : (putFlt s i u).status = s.status := rfl
@[simp] theorem putFlt_faultcw (i : Nat) (u : Flt) : (putFlt s i u).faultcw = s.faultcw := rfl
@[simp] theorem putFlt_resp (i : Nat) (u : Flt) : (putFlt s i u).resp = s.resp := rfl

/-! ### One instance of `ENV` -/

@[simp] theorem putEnv_cfg (i : Nat) (u : Env) : (putEnv s i u).cfg = s.cfg := rfl
@[simp] theorem putEnv_host (i : Nat) (u : Env) : (putEnv s i u).host = s.host := rfl
@[simp] theorem putEnv_cmdPort (i : Nat) (u : Env) : (putEnv s i u).cmdPort = s.cmdPort := rfl
@[simp] theorem putEnv_hostData (i : Nat) (u : Env) : (putEnv s i u).hostData = s.hostData := rfl
@[simp] theorem putEnv_resets (i : Nat) (u : Env) : (putEnv s i u).resets = s.resets := rfl
@[simp] theorem putEnv_blocks (i : Nat) (u : Env) : (putEnv s i u).blocks = s.blocks := rfl
@[simp] theorem putEnv_octmul (i : Nat) (u : Env) : (putEnv s i u).octmul = s.octmul := rfl
@[simp] theorem putEnv_gpm (i : Nat) (u : Env) : (putEnv s i u).gpm = s.gpm := rfl
@[simp] theorem putEnv_osc (i : Nat) (u : Env) : (putEnv s i u).osc = s.osc := rfl
@[simp] theorem putEnv_flt (i : Nat) (u : Env) : (putEnv s i u).flt = s.flt := rfl
@[simp] theorem putEnv_env (i : Nat) (u : Env) : (putEnv s i u).env = s.env.set i u := rfl
@[simp] theorem putEnv_dly (i : Nat) (u : Env) : (putEnv s i u).dly = s.dly := rfl
@[simp] theorem putEnv_cmb (i : Nat) (u : Env) : (putEnv s i u).cmb = s.cmb := rfl
@[simp] theorem putEnv_apf (i : Nat) (u : Env) : (putEnv s i u).apf = s.apf := rfl
@[simp] theorem putEnv_rev (i : Nat) (u : Env) : (putEnv s i u).rev = s.rev := rfl
@[simp] theorem putEnv_pha (i : Nat) (u : Env) : (putEnv s i u).pha = s.pha := rfl
@[simp] theorem putEnv_vib (i : Nat) (u : Env) : (putEnv s i u).vib = s.vib := rfl
@[simp] theorem putEnv_trm (i : Nat) (u : Env) : (putEnv s i u).trm = s.trm := rfl
@[simp] theorem putEnv_psh (i : Nat) (u : Env) : (putEnv s i u).psh = s.psh := rfl
@[simp] theorem putEnv_status (i : Nat) (u : Env) : (putEnv s i u).status = s.status := rfl
@[simp] theorem putEnv_faultcw (i : Nat) (u : Env) : (putEnv s i u).faultcw = s.faultcw := rfl
@[simp] theorem putEnv_resp (i : Nat) (u : Env) : (putEnv s i u).resp = s.resp := rfl

/-! ### One instance of `DLY` -/

@[simp] theorem putDly_cfg (i : Nat) (u : Dly) : (putDly s i u).cfg = s.cfg := rfl
@[simp] theorem putDly_host (i : Nat) (u : Dly) : (putDly s i u).host = s.host := rfl
@[simp] theorem putDly_cmdPort (i : Nat) (u : Dly) : (putDly s i u).cmdPort = s.cmdPort := rfl
@[simp] theorem putDly_hostData (i : Nat) (u : Dly) : (putDly s i u).hostData = s.hostData := rfl
@[simp] theorem putDly_resets (i : Nat) (u : Dly) : (putDly s i u).resets = s.resets := rfl
@[simp] theorem putDly_blocks (i : Nat) (u : Dly) : (putDly s i u).blocks = s.blocks := rfl
@[simp] theorem putDly_octmul (i : Nat) (u : Dly) : (putDly s i u).octmul = s.octmul := rfl
@[simp] theorem putDly_gpm (i : Nat) (u : Dly) : (putDly s i u).gpm = s.gpm := rfl
@[simp] theorem putDly_osc (i : Nat) (u : Dly) : (putDly s i u).osc = s.osc := rfl
@[simp] theorem putDly_flt (i : Nat) (u : Dly) : (putDly s i u).flt = s.flt := rfl
@[simp] theorem putDly_env (i : Nat) (u : Dly) : (putDly s i u).env = s.env := rfl
@[simp] theorem putDly_dly (i : Nat) (u : Dly) : (putDly s i u).dly = s.dly.set i u := rfl
@[simp] theorem putDly_cmb (i : Nat) (u : Dly) : (putDly s i u).cmb = s.cmb := rfl
@[simp] theorem putDly_apf (i : Nat) (u : Dly) : (putDly s i u).apf = s.apf := rfl
@[simp] theorem putDly_rev (i : Nat) (u : Dly) : (putDly s i u).rev = s.rev := rfl
@[simp] theorem putDly_pha (i : Nat) (u : Dly) : (putDly s i u).pha = s.pha := rfl
@[simp] theorem putDly_vib (i : Nat) (u : Dly) : (putDly s i u).vib = s.vib := rfl
@[simp] theorem putDly_trm (i : Nat) (u : Dly) : (putDly s i u).trm = s.trm := rfl
@[simp] theorem putDly_psh (i : Nat) (u : Dly) : (putDly s i u).psh = s.psh := rfl
@[simp] theorem putDly_status (i : Nat) (u : Dly) : (putDly s i u).status = s.status := rfl
@[simp] theorem putDly_faultcw (i : Nat) (u : Dly) : (putDly s i u).faultcw = s.faultcw := rfl
@[simp] theorem putDly_resp (i : Nat) (u : Dly) : (putDly s i u).resp = s.resp := rfl

/-! ### One instance of `CMB` -/

@[simp] theorem putCmb_cfg (i : Nat) (u : Line) : (putCmb s i u).cfg = s.cfg := rfl
@[simp] theorem putCmb_host (i : Nat) (u : Line) : (putCmb s i u).host = s.host := rfl
@[simp] theorem putCmb_cmdPort (i : Nat) (u : Line) : (putCmb s i u).cmdPort = s.cmdPort := rfl
@[simp] theorem putCmb_hostData (i : Nat) (u : Line) : (putCmb s i u).hostData = s.hostData := rfl
@[simp] theorem putCmb_resets (i : Nat) (u : Line) : (putCmb s i u).resets = s.resets := rfl
@[simp] theorem putCmb_blocks (i : Nat) (u : Line) : (putCmb s i u).blocks = s.blocks := rfl
@[simp] theorem putCmb_octmul (i : Nat) (u : Line) : (putCmb s i u).octmul = s.octmul := rfl
@[simp] theorem putCmb_gpm (i : Nat) (u : Line) : (putCmb s i u).gpm = s.gpm := rfl
@[simp] theorem putCmb_osc (i : Nat) (u : Line) : (putCmb s i u).osc = s.osc := rfl
@[simp] theorem putCmb_flt (i : Nat) (u : Line) : (putCmb s i u).flt = s.flt := rfl
@[simp] theorem putCmb_env (i : Nat) (u : Line) : (putCmb s i u).env = s.env := rfl
@[simp] theorem putCmb_dly (i : Nat) (u : Line) : (putCmb s i u).dly = s.dly := rfl
@[simp] theorem putCmb_cmb (i : Nat) (u : Line) : (putCmb s i u).cmb = s.cmb.set i u := rfl
@[simp] theorem putCmb_apf (i : Nat) (u : Line) : (putCmb s i u).apf = s.apf := rfl
@[simp] theorem putCmb_rev (i : Nat) (u : Line) : (putCmb s i u).rev = s.rev := rfl
@[simp] theorem putCmb_pha (i : Nat) (u : Line) : (putCmb s i u).pha = s.pha := rfl
@[simp] theorem putCmb_vib (i : Nat) (u : Line) : (putCmb s i u).vib = s.vib := rfl
@[simp] theorem putCmb_trm (i : Nat) (u : Line) : (putCmb s i u).trm = s.trm := rfl
@[simp] theorem putCmb_psh (i : Nat) (u : Line) : (putCmb s i u).psh = s.psh := rfl
@[simp] theorem putCmb_status (i : Nat) (u : Line) : (putCmb s i u).status = s.status := rfl
@[simp] theorem putCmb_faultcw (i : Nat) (u : Line) : (putCmb s i u).faultcw = s.faultcw := rfl
@[simp] theorem putCmb_resp (i : Nat) (u : Line) : (putCmb s i u).resp = s.resp := rfl

/-! ### One instance of `APF` -/

@[simp] theorem putApf_cfg (i : Nat) (u : Line) : (putApf s i u).cfg = s.cfg := rfl
@[simp] theorem putApf_host (i : Nat) (u : Line) : (putApf s i u).host = s.host := rfl
@[simp] theorem putApf_cmdPort (i : Nat) (u : Line) : (putApf s i u).cmdPort = s.cmdPort := rfl
@[simp] theorem putApf_hostData (i : Nat) (u : Line) : (putApf s i u).hostData = s.hostData := rfl
@[simp] theorem putApf_resets (i : Nat) (u : Line) : (putApf s i u).resets = s.resets := rfl
@[simp] theorem putApf_blocks (i : Nat) (u : Line) : (putApf s i u).blocks = s.blocks := rfl
@[simp] theorem putApf_octmul (i : Nat) (u : Line) : (putApf s i u).octmul = s.octmul := rfl
@[simp] theorem putApf_gpm (i : Nat) (u : Line) : (putApf s i u).gpm = s.gpm := rfl
@[simp] theorem putApf_osc (i : Nat) (u : Line) : (putApf s i u).osc = s.osc := rfl
@[simp] theorem putApf_flt (i : Nat) (u : Line) : (putApf s i u).flt = s.flt := rfl
@[simp] theorem putApf_env (i : Nat) (u : Line) : (putApf s i u).env = s.env := rfl
@[simp] theorem putApf_dly (i : Nat) (u : Line) : (putApf s i u).dly = s.dly := rfl
@[simp] theorem putApf_cmb (i : Nat) (u : Line) : (putApf s i u).cmb = s.cmb := rfl
@[simp] theorem putApf_apf (i : Nat) (u : Line) : (putApf s i u).apf = s.apf.set i u := rfl
@[simp] theorem putApf_rev (i : Nat) (u : Line) : (putApf s i u).rev = s.rev := rfl
@[simp] theorem putApf_pha (i : Nat) (u : Line) : (putApf s i u).pha = s.pha := rfl
@[simp] theorem putApf_vib (i : Nat) (u : Line) : (putApf s i u).vib = s.vib := rfl
@[simp] theorem putApf_trm (i : Nat) (u : Line) : (putApf s i u).trm = s.trm := rfl
@[simp] theorem putApf_psh (i : Nat) (u : Line) : (putApf s i u).psh = s.psh := rfl
@[simp] theorem putApf_status (i : Nat) (u : Line) : (putApf s i u).status = s.status := rfl
@[simp] theorem putApf_faultcw (i : Nat) (u : Line) : (putApf s i u).faultcw = s.faultcw := rfl
@[simp] theorem putApf_resp (i : Nat) (u : Line) : (putApf s i u).resp = s.resp := rfl

/-! ### One instance of `REV` -/

@[simp] theorem putRev_cfg (i : Nat) (u : Rev) : (putRev s i u).cfg = s.cfg := rfl
@[simp] theorem putRev_host (i : Nat) (u : Rev) : (putRev s i u).host = s.host := rfl
@[simp] theorem putRev_cmdPort (i : Nat) (u : Rev) : (putRev s i u).cmdPort = s.cmdPort := rfl
@[simp] theorem putRev_hostData (i : Nat) (u : Rev) : (putRev s i u).hostData = s.hostData := rfl
@[simp] theorem putRev_resets (i : Nat) (u : Rev) : (putRev s i u).resets = s.resets := rfl
@[simp] theorem putRev_blocks (i : Nat) (u : Rev) : (putRev s i u).blocks = s.blocks := rfl
@[simp] theorem putRev_octmul (i : Nat) (u : Rev) : (putRev s i u).octmul = s.octmul := rfl
@[simp] theorem putRev_gpm (i : Nat) (u : Rev) : (putRev s i u).gpm = s.gpm := rfl
@[simp] theorem putRev_osc (i : Nat) (u : Rev) : (putRev s i u).osc = s.osc := rfl
@[simp] theorem putRev_flt (i : Nat) (u : Rev) : (putRev s i u).flt = s.flt := rfl
@[simp] theorem putRev_env (i : Nat) (u : Rev) : (putRev s i u).env = s.env := rfl
@[simp] theorem putRev_dly (i : Nat) (u : Rev) : (putRev s i u).dly = s.dly := rfl
@[simp] theorem putRev_cmb (i : Nat) (u : Rev) : (putRev s i u).cmb = s.cmb := rfl
@[simp] theorem putRev_apf (i : Nat) (u : Rev) : (putRev s i u).apf = s.apf := rfl
@[simp] theorem putRev_rev (i : Nat) (u : Rev) : (putRev s i u).rev = s.rev.set i u := rfl
@[simp] theorem putRev_pha (i : Nat) (u : Rev) : (putRev s i u).pha = s.pha := rfl
@[simp] theorem putRev_vib (i : Nat) (u : Rev) : (putRev s i u).vib = s.vib := rfl
@[simp] theorem putRev_trm (i : Nat) (u : Rev) : (putRev s i u).trm = s.trm := rfl
@[simp] theorem putRev_psh (i : Nat) (u : Rev) : (putRev s i u).psh = s.psh := rfl
@[simp] theorem putRev_status (i : Nat) (u : Rev) : (putRev s i u).status = s.status := rfl
@[simp] theorem putRev_faultcw (i : Nat) (u : Rev) : (putRev s i u).faultcw = s.faultcw := rfl
@[simp] theorem putRev_resp (i : Nat) (u : Rev) : (putRev s i u).resp = s.resp := rfl

/-! ### One instance of `PHA` -/

@[simp] theorem putPha_cfg (i : Nat) (u : Pha) : (putPha s i u).cfg = s.cfg := rfl
@[simp] theorem putPha_host (i : Nat) (u : Pha) : (putPha s i u).host = s.host := rfl
@[simp] theorem putPha_cmdPort (i : Nat) (u : Pha) : (putPha s i u).cmdPort = s.cmdPort := rfl
@[simp] theorem putPha_hostData (i : Nat) (u : Pha) : (putPha s i u).hostData = s.hostData := rfl
@[simp] theorem putPha_resets (i : Nat) (u : Pha) : (putPha s i u).resets = s.resets := rfl
@[simp] theorem putPha_blocks (i : Nat) (u : Pha) : (putPha s i u).blocks = s.blocks := rfl
@[simp] theorem putPha_octmul (i : Nat) (u : Pha) : (putPha s i u).octmul = s.octmul := rfl
@[simp] theorem putPha_gpm (i : Nat) (u : Pha) : (putPha s i u).gpm = s.gpm := rfl
@[simp] theorem putPha_osc (i : Nat) (u : Pha) : (putPha s i u).osc = s.osc := rfl
@[simp] theorem putPha_flt (i : Nat) (u : Pha) : (putPha s i u).flt = s.flt := rfl
@[simp] theorem putPha_env (i : Nat) (u : Pha) : (putPha s i u).env = s.env := rfl
@[simp] theorem putPha_dly (i : Nat) (u : Pha) : (putPha s i u).dly = s.dly := rfl
@[simp] theorem putPha_cmb (i : Nat) (u : Pha) : (putPha s i u).cmb = s.cmb := rfl
@[simp] theorem putPha_apf (i : Nat) (u : Pha) : (putPha s i u).apf = s.apf := rfl
@[simp] theorem putPha_rev (i : Nat) (u : Pha) : (putPha s i u).rev = s.rev := rfl
@[simp] theorem putPha_pha (i : Nat) (u : Pha) : (putPha s i u).pha = s.pha.set i u := rfl
@[simp] theorem putPha_vib (i : Nat) (u : Pha) : (putPha s i u).vib = s.vib := rfl
@[simp] theorem putPha_trm (i : Nat) (u : Pha) : (putPha s i u).trm = s.trm := rfl
@[simp] theorem putPha_psh (i : Nat) (u : Pha) : (putPha s i u).psh = s.psh := rfl
@[simp] theorem putPha_status (i : Nat) (u : Pha) : (putPha s i u).status = s.status := rfl
@[simp] theorem putPha_faultcw (i : Nat) (u : Pha) : (putPha s i u).faultcw = s.faultcw := rfl
@[simp] theorem putPha_resp (i : Nat) (u : Pha) : (putPha s i u).resp = s.resp := rfl

/-! ### One instance of `VIB` -/

@[simp] theorem putVib_cfg (i : Nat) (u : Vib) : (putVib s i u).cfg = s.cfg := rfl
@[simp] theorem putVib_host (i : Nat) (u : Vib) : (putVib s i u).host = s.host := rfl
@[simp] theorem putVib_cmdPort (i : Nat) (u : Vib) : (putVib s i u).cmdPort = s.cmdPort := rfl
@[simp] theorem putVib_hostData (i : Nat) (u : Vib) : (putVib s i u).hostData = s.hostData := rfl
@[simp] theorem putVib_resets (i : Nat) (u : Vib) : (putVib s i u).resets = s.resets := rfl
@[simp] theorem putVib_blocks (i : Nat) (u : Vib) : (putVib s i u).blocks = s.blocks := rfl
@[simp] theorem putVib_octmul (i : Nat) (u : Vib) : (putVib s i u).octmul = s.octmul := rfl
@[simp] theorem putVib_gpm (i : Nat) (u : Vib) : (putVib s i u).gpm = s.gpm := rfl
@[simp] theorem putVib_osc (i : Nat) (u : Vib) : (putVib s i u).osc = s.osc := rfl
@[simp] theorem putVib_flt (i : Nat) (u : Vib) : (putVib s i u).flt = s.flt := rfl
@[simp] theorem putVib_env (i : Nat) (u : Vib) : (putVib s i u).env = s.env := rfl
@[simp] theorem putVib_dly (i : Nat) (u : Vib) : (putVib s i u).dly = s.dly := rfl
@[simp] theorem putVib_cmb (i : Nat) (u : Vib) : (putVib s i u).cmb = s.cmb := rfl
@[simp] theorem putVib_apf (i : Nat) (u : Vib) : (putVib s i u).apf = s.apf := rfl
@[simp] theorem putVib_rev (i : Nat) (u : Vib) : (putVib s i u).rev = s.rev := rfl
@[simp] theorem putVib_pha (i : Nat) (u : Vib) : (putVib s i u).pha = s.pha := rfl
@[simp] theorem putVib_vib (i : Nat) (u : Vib) : (putVib s i u).vib = s.vib.set i u := rfl
@[simp] theorem putVib_trm (i : Nat) (u : Vib) : (putVib s i u).trm = s.trm := rfl
@[simp] theorem putVib_psh (i : Nat) (u : Vib) : (putVib s i u).psh = s.psh := rfl
@[simp] theorem putVib_status (i : Nat) (u : Vib) : (putVib s i u).status = s.status := rfl
@[simp] theorem putVib_faultcw (i : Nat) (u : Vib) : (putVib s i u).faultcw = s.faultcw := rfl
@[simp] theorem putVib_resp (i : Nat) (u : Vib) : (putVib s i u).resp = s.resp := rfl

/-! ### One instance of `TRM` -/

@[simp] theorem putTrm_cfg (i : Nat) (u : Trm) : (putTrm s i u).cfg = s.cfg := rfl
@[simp] theorem putTrm_host (i : Nat) (u : Trm) : (putTrm s i u).host = s.host := rfl
@[simp] theorem putTrm_cmdPort (i : Nat) (u : Trm) : (putTrm s i u).cmdPort = s.cmdPort := rfl
@[simp] theorem putTrm_hostData (i : Nat) (u : Trm) : (putTrm s i u).hostData = s.hostData := rfl
@[simp] theorem putTrm_resets (i : Nat) (u : Trm) : (putTrm s i u).resets = s.resets := rfl
@[simp] theorem putTrm_blocks (i : Nat) (u : Trm) : (putTrm s i u).blocks = s.blocks := rfl
@[simp] theorem putTrm_octmul (i : Nat) (u : Trm) : (putTrm s i u).octmul = s.octmul := rfl
@[simp] theorem putTrm_gpm (i : Nat) (u : Trm) : (putTrm s i u).gpm = s.gpm := rfl
@[simp] theorem putTrm_osc (i : Nat) (u : Trm) : (putTrm s i u).osc = s.osc := rfl
@[simp] theorem putTrm_flt (i : Nat) (u : Trm) : (putTrm s i u).flt = s.flt := rfl
@[simp] theorem putTrm_env (i : Nat) (u : Trm) : (putTrm s i u).env = s.env := rfl
@[simp] theorem putTrm_dly (i : Nat) (u : Trm) : (putTrm s i u).dly = s.dly := rfl
@[simp] theorem putTrm_cmb (i : Nat) (u : Trm) : (putTrm s i u).cmb = s.cmb := rfl
@[simp] theorem putTrm_apf (i : Nat) (u : Trm) : (putTrm s i u).apf = s.apf := rfl
@[simp] theorem putTrm_rev (i : Nat) (u : Trm) : (putTrm s i u).rev = s.rev := rfl
@[simp] theorem putTrm_pha (i : Nat) (u : Trm) : (putTrm s i u).pha = s.pha := rfl
@[simp] theorem putTrm_vib (i : Nat) (u : Trm) : (putTrm s i u).vib = s.vib := rfl
@[simp] theorem putTrm_trm (i : Nat) (u : Trm) : (putTrm s i u).trm = s.trm.set i u := rfl
@[simp] theorem putTrm_psh (i : Nat) (u : Trm) : (putTrm s i u).psh = s.psh := rfl
@[simp] theorem putTrm_status (i : Nat) (u : Trm) : (putTrm s i u).status = s.status := rfl
@[simp] theorem putTrm_faultcw (i : Nat) (u : Trm) : (putTrm s i u).faultcw = s.faultcw := rfl
@[simp] theorem putTrm_resp (i : Nat) (u : Trm) : (putTrm s i u).resp = s.resp := rfl

/-! ### One instance of `PSH` -/

@[simp] theorem putPsh_cfg (i : Nat) (u : Psh) : (putPsh s i u).cfg = s.cfg := rfl
@[simp] theorem putPsh_host (i : Nat) (u : Psh) : (putPsh s i u).host = s.host := rfl
@[simp] theorem putPsh_cmdPort (i : Nat) (u : Psh) : (putPsh s i u).cmdPort = s.cmdPort := rfl
@[simp] theorem putPsh_hostData (i : Nat) (u : Psh) : (putPsh s i u).hostData = s.hostData := rfl
@[simp] theorem putPsh_resets (i : Nat) (u : Psh) : (putPsh s i u).resets = s.resets := rfl
@[simp] theorem putPsh_blocks (i : Nat) (u : Psh) : (putPsh s i u).blocks = s.blocks := rfl
@[simp] theorem putPsh_octmul (i : Nat) (u : Psh) : (putPsh s i u).octmul = s.octmul := rfl
@[simp] theorem putPsh_gpm (i : Nat) (u : Psh) : (putPsh s i u).gpm = s.gpm := rfl
@[simp] theorem putPsh_osc (i : Nat) (u : Psh) : (putPsh s i u).osc = s.osc := rfl
@[simp] theorem putPsh_flt (i : Nat) (u : Psh) : (putPsh s i u).flt = s.flt := rfl
@[simp] theorem putPsh_env (i : Nat) (u : Psh) : (putPsh s i u).env = s.env := rfl
@[simp] theorem putPsh_dly (i : Nat) (u : Psh) : (putPsh s i u).dly = s.dly := rfl
@[simp] theorem putPsh_cmb (i : Nat) (u : Psh) : (putPsh s i u).cmb = s.cmb := rfl
@[simp] theorem putPsh_apf (i : Nat) (u : Psh) : (putPsh s i u).apf = s.apf := rfl
@[simp] theorem putPsh_rev (i : Nat) (u : Psh) : (putPsh s i u).rev = s.rev := rfl
@[simp] theorem putPsh_pha (i : Nat) (u : Psh) : (putPsh s i u).pha = s.pha := rfl
@[simp] theorem putPsh_vib (i : Nat) (u : Psh) : (putPsh s i u).vib = s.vib := rfl
@[simp] theorem putPsh_trm (i : Nat) (u : Psh) : (putPsh s i u).trm = s.trm := rfl
@[simp] theorem putPsh_psh (i : Nat) (u : Psh) : (putPsh s i u).psh = s.psh.set i u := rfl
@[simp] theorem putPsh_status (i : Nat) (u : Psh) : (putPsh s i u).status = s.status := rfl
@[simp] theorem putPsh_faultcw (i : Nat) (u : Psh) : (putPsh s i u).faultcw = s.faultcw := rfl
@[simp] theorem putPsh_resp (i : Nat) (u : Psh) : (putPsh s i u).resp = s.resp := rfl

/-! ### `RESP` -/

@[simp] theorem putResp_cfg (v : Word32) : (putResp s v).cfg = s.cfg := rfl
@[simp] theorem putResp_host (v : Word32) : (putResp s v).host = s.host := rfl
@[simp] theorem putResp_cmdPort (v : Word32) : (putResp s v).cmdPort = s.cmdPort := rfl
@[simp] theorem putResp_hostData (v : Word32) : (putResp s v).hostData = s.hostData := rfl
@[simp] theorem putResp_resets (v : Word32) : (putResp s v).resets = s.resets := rfl
@[simp] theorem putResp_blocks (v : Word32) : (putResp s v).blocks = s.blocks := rfl
@[simp] theorem putResp_octmul (v : Word32) : (putResp s v).octmul = s.octmul := rfl
@[simp] theorem putResp_gpm (v : Word32) : (putResp s v).gpm = s.gpm := rfl
@[simp] theorem putResp_osc (v : Word32) : (putResp s v).osc = s.osc := rfl
@[simp] theorem putResp_flt (v : Word32) : (putResp s v).flt = s.flt := rfl
@[simp] theorem putResp_env (v : Word32) : (putResp s v).env = s.env := rfl
@[simp] theorem putResp_dly (v : Word32) : (putResp s v).dly = s.dly := rfl
@[simp] theorem putResp_cmb (v : Word32) : (putResp s v).cmb = s.cmb := rfl
@[simp] theorem putResp_apf (v : Word32) : (putResp s v).apf = s.apf := rfl
@[simp] theorem putResp_rev (v : Word32) : (putResp s v).rev = s.rev := rfl
@[simp] theorem putResp_pha (v : Word32) : (putResp s v).pha = s.pha := rfl
@[simp] theorem putResp_vib (v : Word32) : (putResp s v).vib = s.vib := rfl
@[simp] theorem putResp_trm (v : Word32) : (putResp s v).trm = s.trm := rfl
@[simp] theorem putResp_psh (v : Word32) : (putResp s v).psh = s.psh := rfl
@[simp] theorem putResp_status (v : Word32) : (putResp s v).status = s.status := rfl
@[simp] theorem putResp_faultcw (v : Word32) : (putResp s v).faultcw = s.faultcw := rfl
@[simp] theorem putResp_resp (v : Word32) : (putResp s v).resp = v := rfl

/-! ### The fault (R281) -/

@[simp] theorem raise_cfg (c : Cause) : (raise c s).cfg = s.cfg := rfl
@[simp] theorem raise_host (c : Cause) : (raise c s).host = s.host := rfl
@[simp] theorem raise_cmdPort (c : Cause) : (raise c s).cmdPort = s.cmdPort := rfl
@[simp] theorem raise_hostData (c : Cause) : (raise c s).hostData = s.hostData := rfl
@[simp] theorem raise_resets (c : Cause) : (raise c s).resets = s.resets := rfl
@[simp] theorem raise_blocks (c : Cause) : (raise c s).blocks = s.blocks := rfl
@[simp] theorem raise_octmul (c : Cause) : (raise c s).octmul = s.octmul := rfl
@[simp] theorem raise_gpm (c : Cause) : (raise c s).gpm = s.gpm := rfl
@[simp] theorem raise_osc (c : Cause) : (raise c s).osc = s.osc := rfl
@[simp] theorem raise_flt (c : Cause) : (raise c s).flt = s.flt := rfl
@[simp] theorem raise_env (c : Cause) : (raise c s).env = s.env := rfl
@[simp] theorem raise_dly (c : Cause) : (raise c s).dly = s.dly := rfl
@[simp] theorem raise_cmb (c : Cause) : (raise c s).cmb = s.cmb := rfl
@[simp] theorem raise_apf (c : Cause) : (raise c s).apf = s.apf := rfl
@[simp] theorem raise_rev (c : Cause) : (raise c s).rev = s.rev := rfl
@[simp] theorem raise_pha (c : Cause) : (raise c s).pha = s.pha := rfl
@[simp] theorem raise_vib (c : Cause) : (raise c s).vib = s.vib := rfl
@[simp] theorem raise_trm (c : Cause) : (raise c s).trm = s.trm := rfl
@[simp] theorem raise_psh (c : Cause) : (raise c s).psh = s.psh := rfl
@[simp] theorem raise_status (c : Cause) : (raise c s).status = statusWord c := rfl
@[simp] theorem raise_faultcw (c : Cause) : (raise c s).faultcw = s.cmdPort := rfl
@[simp] theorem raise_resp (c : Cause) : (raise c s).resp = s.resp := rfl

/-! ### Hard reset (R300) -/

@[simp] theorem hardReset_cfg : (hardReset s).cfg = s.cfg := rfl
@[simp] theorem hardReset_host : (hardReset s).host = s.host := rfl
@[simp] theorem hardReset_cmdPort : (hardReset s).cmdPort = 0#64 := rfl
@[simp] theorem hardReset_hostData : (hardReset s).hostData = s.hostData := rfl
@[simp] theorem hardReset_resets : (hardReset s).resets = s.resets + 1 := rfl
@[simp] theorem hardReset_blocks : (hardReset s).blocks = [] := rfl
@[simp] theorem hardReset_octmul : (hardReset s).octmul = fOne := rfl
@[simp] theorem hardReset_gpm : (hardReset s).gpm = fOne := rfl
@[simp] theorem hardReset_osc : (hardReset s).osc = List.replicate s.cfg.nOsc Osc.hardReset := rfl
@[simp] theorem hardReset_flt : (hardReset s).flt = List.replicate s.cfg.nFlt (Flt.hardReset s.cfg) := rfl
@[simp] theorem hardReset_env : (hardReset s).env = List.replicate s.cfg.nEnv Env.hardReset := rfl
@[simp] theorem hardReset_dly : (hardReset s).dly = List.replicate s.cfg.nDly Dly.hardReset := rfl
@[simp] theorem hardReset_cmb : (hardReset s).cmb = List.replicate s.cfg.nCmb (Line.hardReset s.cfg.capCmb fZero) := rfl
@[simp] theorem hardReset_apf : (hardReset s).apf = List.replicate s.cfg.nApf (Line.hardReset s.cfg.capApf fZero) := rfl
@[simp] theorem hardReset_rev : (hardReset s).rev = List.replicate s.cfg.nRev (Rev.hardReset s.cfg) := rfl
@[simp] theorem hardReset_pha : (hardReset s).pha = List.replicate s.cfg.nPha (Pha.hardReset s.cfg) := rfl
@[simp] theorem hardReset_vib : (hardReset s).vib = List.replicate s.cfg.nVib Vib.hardReset := rfl
@[simp] theorem hardReset_trm : (hardReset s).trm = List.replicate s.cfg.nTrm Trm.hardReset := rfl
@[simp] theorem hardReset_psh : (hardReset s).psh = List.replicate s.cfg.nPsh Psh.hardReset := rfl
@[simp] theorem hardReset_status : (hardReset s).status = 0#32 := rfl
@[simp] theorem hardReset_faultcw : (hardReset s).faultcw = 0#64 := rfl
@[simp] theorem hardReset_resp : (hardReset s).resp = 0#32 := rfl

end Sys2Proof.Machine
end

