-- ==== Sys2Proof/Laws/Memory.lean ====
section
/-! SUPPORT. Word arrays, private buffers and block registers: what is read after a write, and that every
operation keeps the one form of an array. -/

namespace Sys2Proof.Machine

/-! ### Word arrays -/

@[simp] theorem wordAt_nil (a : Nat) : wordAt [] a = none := rfl

theorem wordAt_wordPut_same (m : WordMem) (a : Nat) (v : F32) : wordAt (wordPut m a v) a = some v := by
  induction m with
  | nil => simp [wordPut, wordAt]
  | cons p m ih =>
    obtain ⟨b, w⟩ := p
    unfold wordPut
    split
    · simp [wordAt]
    · split
      · simp [wordAt]
      · simp_all [wordAt]

theorem wordAt_wordPut_other (m : WordMem) {a b : Nat} (v : F32) (h : b ≠ a) :
    wordAt (wordPut m a v) b = wordAt m b := by
  induction m with
  | nil =>
    simp only [wordPut, wordAt, h, if_false]
    split <;> rfl
  | cons p m ih =>
    obtain ⟨k, w⟩ := p
    unfold wordPut
    split
    · subst_vars
      simp [wordAt, h]
    · split
      · simp only [wordAt, h, if_false]
        split
        · have : ¬ b = k := by omega
          have : b < k := by omega
          simp [*]
        · rfl
      · simp [wordAt, ih]

/-- A word array read after one write (R83). -/
theorem wordAt_wordPut (m : WordMem) (a b : Nat) (v : F32) :
    wordAt (wordPut m a v) b = if b = a then some v else wordAt m b := by
  split
  · subst_vars; exact wordAt_wordPut_same m _ v
  · exact wordAt_wordPut_other m v ‹_›

theorem rising_wordPut {m : WordMem} {lo a : Nat} (v : F32) (hm : rising lo m = true) (ha : lo ≤ a) :
    rising lo (wordPut m a v) = true := by
  induction m generalizing lo with
  | nil => simp [wordPut, rising, ha]
  | cons p m ih =>
    obtain ⟨b, w⟩ := p
    simp only [rising, Bool.and_eq_true, decide_eq_true_eq] at hm
    unfold wordPut
    split
    · subst_vars; simp [rising, hm.1, hm.2]
    · split
      · simp [rising, hm.2, ha]; omega
      · simp [rising, hm.1, ih hm.2 (by omega : b + 1 ≤ a)]

theorem rising_mono {m : WordMem} {lo lo' : Nat} (h : rising lo m = true) (hl : lo' ≤ lo) :
    rising lo' m = true := by
  cases m with
  | nil => rfl
  | cons p m => simp_all [rising]; omega

theorem rising_wordDrop {m : WordMem} {lo : Nat} (a : Nat) (hm : rising lo m = true) :
    rising lo (wordDrop m a) = true := by
  induction m generalizing lo with
  | nil => rfl
  | cons p m ih =>
    obtain ⟨b, w⟩ := p
    simp only [rising, Bool.and_eq_true, decide_eq_true_eq] at hm
    unfold wordDrop
    split
    · exact rising_mono hm.2 (by omega)
    · split
      · simp [rising, hm]
      · simp [rising, hm.1, ih hm.2]

/-- Nothing is listed below where an array begins. -/
theorem wordAt_eq_none_of_rising {m : WordMem} {lo a : Nat} (hm : rising lo m = true) (ha : a < lo) :
    wordAt m a = none := by
  cases m with
  | nil => rfl
  | cons p m =>
    obtain ⟨b, w⟩ := p
    simp only [rising, Bool.and_eq_true, decide_eq_true_eq] at hm
    have hne : ¬ a = b := by omega
    have hlt : a < b := by omega
    rw [wordAt, if_neg hne, if_pos hlt]

theorem wordAt_wordDrop {m : WordMem} {lo : Nat} (a b : Nat) (hm : rising lo m = true) :
    wordAt (wordDrop m a) b = if b = a then none else wordAt m b := by
  induction m generalizing lo with
  | nil => simp [wordDrop]
  | cons p m ih =>
    obtain ⟨k, w⟩ := p
    simp only [rising, Bool.and_eq_true, decide_eq_true_eq] at hm
    unfold wordDrop
    by_cases hak : a = k
    · subst hak
      rw [if_pos rfl]
      by_cases hb : b = a
      · subst hb
        rw [if_pos rfl, wordAt_eq_none_of_rising hm.2 (Nat.lt_succ_self b)]
      · rw [if_neg hb, wordAt, if_neg hb]
        split
        · exact wordAt_eq_none_of_rising hm.2 (by omega)
        · rfl
    · rw [if_neg hak]
      by_cases hlt : a < k
      · rw [if_pos hlt]
        by_cases hb : b = a
        · subst hb
          rw [if_pos rfl, wordAt, if_neg hak, if_pos hlt]
        · rw [if_neg hb]
      · rw [if_neg hlt, wordAt, wordAt, ih hm.2]
        by_cases hb : b = a
        · subst hb
          simp [hak]
        · simp [hb]

theorem mem_wordPut {m : WordMem} {a : Nat} {v : F32} {p : Nat × F32} (h : p ∈ wordPut m a v) :
    p = (a, v) ∨ p ∈ m := by
  induction m with
  | nil => simpa [wordPut] using h
  | cons q m ih =>
    obtain ⟨b, w⟩ := q
    unfold wordPut at h
    split at h
    · simp at h; tauto
    · split at h
      · simp at h; simp; tauto
      · simp at h ⊢
        rcases h with h | h
        · exact .inr (.inl h)
        · rcases ih h with h | h <;> tauto

theorem mem_of_mem_wordDrop {m : WordMem} {a : Nat} {p : Nat × F32} (h : p ∈ wordDrop m a) : p ∈ m := by
  induction m with
  | nil => cases h
  | cons q m ih =>
    obtain ⟨b, w⟩ := q
    unfold wordDrop at h
    split at h
    · simp [h]
    · split at h
      · exact h
      · simp at h ⊢
        rcases h with h | h
        · exact .inl h
        · exact .inr (ih h)

theorem within_wordPut {m : WordMem} {cap a : Nat} (v : F32) (hm : within cap m = true) (ha : a < cap) :
    within cap (wordPut m a v) = true := by
  simp only [within, List.all_eq_true, decide_eq_true_eq] at hm ⊢
  intro p hp
  rcases mem_wordPut hp with rfl | h
  · exact ha
  · exact hm p h

/-! ### Private buffers -/

theorem memory_wf_nil (cap : Nat) : Memory.wf cap [] = true := rfl

/-- A store keeps the one form of a private buffer. -/
theorem memory_wf_wordStore {cap : Nat} {m : WordMem} {a : Nat} (v : F32)
    (hm : Memory.wf cap m = true) (ha : a < cap) : Memory.wf cap (wordStore m a v) = true := by
  simp only [Memory.wf, Bool.and_eq_true, within, List.all_eq_true, decide_eq_true_eq] at hm ⊢
  obtain ⟨⟨h1, h2⟩, h3⟩ := hm
  unfold wordStore
  split
  · exact ⟨⟨rising_wordDrop a h1, fun p hp => h2 p (mem_of_mem_wordDrop hp)⟩,
      fun p hp => h3 p (mem_of_mem_wordDrop hp)⟩
  · refine ⟨⟨rising_wordPut v h1 (Nat.zero_le a), fun p hp => ?_⟩, fun p hp => ?_⟩
    · rcases mem_wordPut hp with rfl | h
      · exact ha
      · exact h2 p h
    · rcases mem_wordPut hp with rfl | h
      · assumption
      · exact h3 p h

@[simp] theorem wordOrZero_nil (a : Nat) : wordOrZero [] a = fZero := rfl

/-- A private buffer read after one store (R83). -/
theorem wordOrZero_wordStore {cap : Nat} {m : WordMem} (a b : Nat) (v : F32)
    (hm : Memory.wf cap m = true) :
    wordOrZero (wordStore m a v) b = if b = a then v else wordOrZero m b := by
  simp only [Memory.wf, Bool.and_eq_true] at hm
  unfold wordStore wordOrZero
  split
  · rw [wordAt_wordDrop a b hm.1.1]
    split <;> simp_all
  · rw [wordAt_wordPut]
    split <;> rfl

/-- Two buffers of one form with equal words are equal. -/
theorem eq_of_wordAt_eq {m m' : WordMem} {lo : Nat} (h : rising lo m = true) (h' : rising lo m' = true)
    (heq : ∀ a, wordAt m a = wordAt m' a) : m = m' := by
  induction m generalizing lo m' with
  | nil =>
    cases m' with
    | nil => rfl
    | cons p m' => have := heq p.1; simp [wordAt] at this
  | cons p m ih =>
    obtain ⟨a, v⟩ := p
    cases m' with
    | nil => have := heq a; simp [wordAt] at this
    | cons q m' =>
      obtain ⟨b, w⟩ := q
      simp only [rising, Bool.and_eq_true, decide_eq_true_eq] at h h'
      have hab : a = b := by
        have h1 := heq a
        have h2 := heq b
        simp only [wordAt, if_true] at h1 h2
        by_contra hne
        rcases Nat.lt_or_gt_of_ne hne with hlt | hlt
        · simp [hne, hlt] at h1
        · simp [Ne.symm hne, hlt] at h2
      subst hab
      have hv : v = w := by simpa [wordAt] using heq a
      subst hv
      refine congrArg _ (ih h.2 h'.2 fun k => ?_)
      rcases Nat.lt_or_ge k (a + 1) with hk | hk
      · rw [wordAt_eq_none_of_rising h.2 hk, wordAt_eq_none_of_rising h'.2 hk]
      · have hne : ¬ k = a := by omega
        have hnlt : ¬ k < a := by omega
        have := heq k
        rwa [wordAt, wordAt, if_neg hne, if_neg hnlt, if_neg hne, if_neg hnlt] at this

/-- What a read of a private buffer can do (R83). -/
theorem memRead_of_lt {cap : Nat} (m : WordMem) {a : Nat} (ha : a < cap) :
    memRead cap m a = .ok (wordOrZero m a) := if_pos ha

/-- What a write of a private buffer can do (R83). -/
theorem memWrite_of_lt {cap : Nat} (m : WordMem) {a : Nat} (v : F32) (ha : a < cap) :
    memWrite cap m a v = .ok (wordStore m a v) := if_pos ha

theorem memRead_ok {cap : Nat} {m : WordMem} {a : Nat} {v : F32} (h : memRead cap m a = .ok v) :
    a < cap ∧ v = wordOrZero m a := by
  unfold memRead at h
  split at h
  · exact ⟨‹_›, by cases h; rfl⟩
  · cases h

theorem memWrite_ok {cap : Nat} {m m' : WordMem} {a : Nat} {v : F32} (h : memWrite cap m a v = .ok m') :
    a < cap ∧ m' = wordStore m a v := by
  unfold memWrite at h
  split at h
  · exact ⟨‹_›, by cases h; rfl⟩
  · cases h

/-! ### Block registers -/

/-- Different samples have different words of the block memory (R70). -/
theorem blockIndex_inj {c : Config} {i n i' n' : Nat} (hn : n < c.blockLen) (hn' : n' < c.blockLen)
    (h : blockIndex c i n = blockIndex c i' n') : i = i' ∧ n = n' := by
  unfold blockIndex at h
  have hi : i = i' := by
    have h1 : (n + c.blockLen * i) / c.blockLen = i := by
      rw [Nat.add_mul_div_left _ _ (by omega), Nat.div_eq_of_lt hn, Nat.zero_add]
    have h2 : (n' + c.blockLen * i') / c.blockLen = i' := by
      rw [Nat.add_mul_div_left _ _ (by omega), Nat.div_eq_of_lt hn', Nat.zero_add]
    rw [Nat.mul_comm i, Nat.mul_comm i', Nat.add_comm, Nat.add_comm _ n'] at h
    rw [← h1, ← h2, h]
  subst hi
  exact ⟨rfl, by omega⟩

theorem blockIndex_lt {c : Config} {i n : Nat} (hi : i < c.nBlk) (hn : n < c.blockLen) :
    blockIndex c i n < c.nBlk * c.blockLen := by
  unfold blockIndex
  have := Nat.mul_le_mul_right c.blockLen (Nat.succ_le_of_lt hi)
  rw [Nat.succ_mul] at this
  omega

@[simp] theorem readSample_writeSample_same (s : State) (i n : Nat) (v : F32) :
    readSample (writeSample s i n v) i n = v := by
  simp [readSample, wordAt_wordPut_same]

theorem readSample_writeSample_other (s : State) {i n j k : Nat} (v : F32)
    (h : blockIndex s.cfg j k ≠ blockIndex s.cfg i n) :
    readSample (writeSample s i n v) j k = readSample s j k := by
  simp [readSample, wordAt_wordPut_other _ _ h]

/-- Writing a sample keeps the form of the block memory. -/
theorem blocksOk_writeSample {s : State} {i n : Nat} (v : F32) (h : s.BlocksOk) (hi : i < s.cfg.nBlk)
    (hn : n < s.cfg.blockLen) : (writeSample s i n v).BlocksOk :=
  ⟨rising_wordPut v h.1 (Nat.zero_le _), within_wordPut v h.2 (blockIndex_lt hi hn)⟩

/-! ### Reset -/

/-- The block memory lists nothing after hard reset, so it is in its one form (R23). -/
theorem powerOn_blocksOk (c : Config) (k : Nat) : (State.powerOn c k).BlocksOk := ⟨rfl, rfl⟩

/-- Every private buffer is in its one form after hard reset (R40, R300). -/
theorem reset_memory_wf :
    (∀ d ∈ State.reset.dly, Memory.wf State.reset.cfg.capDly d.buf = true)
      ∧ (∀ u ∈ State.reset.cmb, Memory.wf State.reset.cfg.capCmb u.buf = true)
      ∧ (∀ u ∈ State.reset.apf, Memory.wf State.reset.cfg.capApf u.buf = true)
      ∧ (∀ ph ∈ State.reset.pha, ∀ st ∈ ph.stages, Memory.wf State.reset.cfg.capPha st.buf = true)
      ∧ (∀ v ∈ State.reset.vib, Memory.wf State.reset.cfg.capVib v.buf = true)
      ∧ (∀ u ∈ State.reset.psh, Memory.wf State.reset.cfg.capPsh u.buf = true) := by decide +kernel

/-- The seven buffers of every reverb are in their one form after hard reset (R35, R300). -/
theorem reset_reverb_memory_wf : ∀ r ∈ State.reset.rev,
    Memory.wf State.reset.cfg.capRevCb0 r.cb0.buf = true
      ∧ Memory.wf State.reset.cfg.capRevCb1 r.cb1.buf = true
      ∧ Memory.wf State.reset.cfg.capRevCb2 r.cb2.buf = true
      ∧ Memory.wf State.reset.cfg.capRevCb3 r.cb3.buf = true
      ∧ Memory.wf State.reset.cfg.capRevAp0 r.ap0.buf = true
      ∧ Memory.wf State.reset.cfg.capRevAp1 r.ap1.buf = true
      ∧ Memory.wf State.reset.cfg.capRevAp2 r.ap2.buf = true := by decide +kernel

end Sys2Proof.Machine
end

