-- ==== Sys2Proof/Laws/Commands.lean ====
section
/-! SUPPORT. Once for each shared operation of the commands, everything it can do: the decode checks, the
block loop, the command shapes. -/

namespace Sys2Proof.Machine

/-! ### The checks of R104 -/

theorem withInstance_some {U : Type} {units : List U} {i : Nat} {u : U} (s : State) (run : U → Out)
    (h : units[i]? = some u) : withInstance units i s run = run u := by simp [withInstance, h]

theorem withInstance_none {U : Type} {units : List U} {i : Nat} (s : State) (run : U → Out)
    (h : units.length ≤ i) : withInstance units i s run = .next (raise .illegalInstance s) := by
  simp [withInstance, List.getElem?_eq_none h]

theorem withBlocks_ok {fields : List Nat} {s : State} (run : Out) (h : ∀ b ∈ fields, b < s.cfg.nBlk) :
    withBlocks fields s run = run := by
  unfold withBlocks
  rw [if_pos (by simpa [List.all_eq_true] using h)]

theorem withBlocks_illegal {fields : List Nat} {s : State} (run : Out)
    (h : ∃ b ∈ fields, s.cfg.nBlk ≤ b) :
    withBlocks fields s run = .next (raise .illegalBlock s) := by
  unfold withBlocks
  rw [if_neg]
  simp only [List.all_eq_true, decide_eq_true_eq]
  intro hall
  obtain ⟨b, hb, hle⟩ := h
  have := hall b hb
  omega

theorem withoutAlias_ok {dst : Nat} {others : List Nat} (s : State) (run : Out) (h : dst ∉ others) :
    withoutAlias dst others s run = run := by
  unfold withoutAlias
  rw [if_neg (by simpa using h)]

theorem withoutAlias_illegal {dst : Nat} {others : List Nat} (s : State) (run : Out)
    (h : dst ∈ others) : withoutAlias dst others s run = .next (raise .illegalAlias s) := by
  unfold withoutAlias
  rw [if_pos (by simpa using h)]

@[simp] theorem withRegister_some {A : Type} (a : A) (s : State) (run : A → Out) :
    withRegister (some a) s run = run a := rfl

@[simp] theorem withRegister_none {A : Type} (s : State) (run : A → Out) :
    withRegister none s run = .next (raise .illegalRegister s) := rfl

/-! ### The block loop (R15, R120) -/

/-- Everything `k` samples of a block operation do, from sample `n` on, for a rule that keeps `P` and
never stops under it: `us j` is the unit that sample `n + j` sees. -/
theorem blockLoop_spec {U : Type} {rule : SampleRule U} {P : U → Prop}
    (hrule : ∀ u x m, P u → ∃ y u', rule u x m = .ok (y, u') ∧ P u') (bD bS bM : Nat) :
    ∀ (k n : Nat) (u : U) (s : State), P u → n + k ≤ s.cfg.blockLen →
      ∃ (us : Nat → U) (s' : State),
        blockLoop rule bD bS bM k n u s = .ok (us k, s') ∧ us 0 = u ∧ P (us k)
          ∧ s' = { s with blocks := s'.blocks }
          ∧ (∀ j, j < k → rule (us j) (readSample s bS (n + j)) (readSample s bM (n + j))
              = .ok (readSample s' bD (n + j), us (j + 1)))
          ∧ (∀ a, (∀ j, j < k → a ≠ blockIndex s.cfg bD (n + j)) →
              wordAt s'.blocks a = wordAt s.blocks a)
          ∧ (s.BlocksOk → bD < s.cfg.nBlk → s'.BlocksOk) := by
  intro k
  induction k with
  | zero =>
    intro n u s hP _
    exact ⟨fun _ => u, s, rfl, rfl, hP, rfl, fun j hj => absurd hj (Nat.not_lt_zero j),
      fun _ _ => rfl, fun h _ => h⟩
  | succ k ih =>
    intro n u s hP hn
    obtain ⟨y, u1, hr, hP1⟩ := hrule u (readSample s bS n) (readSample s bM n) hP
    obtain ⟨us, s', hloop, h0, hPk, hs, hsamples, hframe, hblocks⟩ :=
      ih (n + 1) u1 (writeSample s bD n y) hP1 (by simp only [writeSample_cfg]; omega)
    have hother : ∀ b j, j < k →
        readSample (writeSample s bD n y) b (n + 1 + j) = readSample s b (n + 1 + j) := by
      intro b j hj
      refine readSample_writeSample_other s y fun heq => ?_
      have := (blockIndex_inj (by omega) (by omega) heq).2
      omega
    have hkept : readSample s' bD n = y := by
      have hw := hframe (blockIndex s.cfg bD n) fun j hj heq => by
        have := (blockIndex_inj (c := s.cfg) (by omega) (by omega) heq).2
        omega
      have hc : s'.cfg = s.cfg := by rw [hs]; rfl
      unfold readSample
      rw [hc, hw]
      simp [wordAt_wordPut_same]
    refine ⟨fun j => if j = 0 then u else us (j - 1), s', ?_, ?_, ?_, ?_, ?_, ?_, ?_⟩
    · simp only [blockLoop, hr]
      simpa using hloop
    · simp
    · simpa using hPk
    · rw [hs]; rfl
    · intro j hj
      rcases Nat.eq_zero_or_pos j with rfl | hpos
      · simp [hr, hkept, h0]
      · have := hsamples (j - 1) (by omega)
        rw [hother _ _ (by omega), hother _ _ (by omega)] at this
        have e1 : n + 1 + (j - 1) = n + j := by omega
        have e2 : j - 1 + 1 = j := by omega
        rw [e1, e2] at this
        have hj0 : ¬ j = 0 := by omega
        simp only [hj0, if_false, Nat.add_eq_zero_iff, one_ne_zero, and_false, Nat.add_sub_cancel]
        exact this
    · intro a ha
      rw [hframe a fun j hj => by
        have := ha (j + 1) (by omega)
        rwa [(by omega : n + (j + 1) = n + 1 + j)] at this]
      have := ha 0 (by omega)
      simp only [writeSample_blocks]
      exact wordAt_wordPut_other _ _ (by simpa using this)
    · intro hb hD
      exact hblocks (blocksOk_writeSample y hb hD (by omega)) hD

/-- Everything a whole block operation does, for a rule that keeps `P` and never stops under it. -/
theorem processBlock_spec {U : Type} {rule : SampleRule U} {P : U → Prop}
    (hrule : ∀ u x m, P u → ∃ y u', rule u x m = .ok (y, u') ∧ P u') (put : State → U → State)
    (bD bS bM : Nat) (u : U) (s : State) (hP : P u) :
    ∃ (u' : U) (s' : State), processBlock rule put bD bS bM u s = .next (put s' u') ∧ P u'
      ∧ s' = { s with blocks := s'.blocks } ∧ Processed rule bD bS bM s s' u u'
      ∧ OnlyBlock bD s s' ∧ (s.BlocksOk → bD < s.cfg.nBlk → s'.BlocksOk) := by
  obtain ⟨us, s', hloop, h0, hPk, hs, hsamples, hframe, hblocks⟩ :=
    blockLoop_spec hrule bD bS bM s.cfg.blockLen 0 u s hP (by omega)
  refine ⟨us s.cfg.blockLen, s', ?_, hPk, hs, ⟨us, h0, rfl, ?_⟩, ?_, hblocks⟩
  · simp [processBlock, hloop]
  · intro n hn
    simpa using hsamples n hn
  · intro a ha
    exact hframe a fun j hj heq => ha ⟨j, hj, by simpa using heq⟩

/-- A block operation that answers a next state ran its rule on every sample. -/
theorem processBlock_next {U : Type} {rule : SampleRule U} {put : State → U → State}
    {bD bS bM : Nat} {u : U} {s t : State} (h : processBlock rule put bD bS bM u s = .next t) :
    ∃ u' s', blockLoop rule bD bS bM s.cfg.blockLen 0 u s = .ok (u', s') ∧ t = put s' u' := by
  unfold processBlock at h
  split at h
  · cases h
  · rename_i u' s' hl
    exact ⟨u', s', hl, by cases h; rfl⟩

/-! ### Command shapes -/

/-- Everything a format Z command does (R95). -/
theorem updateUnit_cases {U : Type} (units : List U) (put : State → Nat → U → State) (f : U → U)
    (i : Nat) (s : State) :
    (∃ u, units[i]? = some u ∧ updateUnit units put f i s = .next (put s i (f u)))
      ∨ (units[i]? = none ∧ updateUnit units put f i s = .next (raise .illegalInstance s)) := by
  unfold updateUnit withInstance
  cases h : units[i]? with
  | some u => exact .inl ⟨u, rfl, rfl⟩
  | none => exact .inr ⟨rfl, rfl⟩

/-- Everything a format S command does (R96). -/
theorem setpUnit_cases {U : Type} (units : List U) (put : State → Nat → U → State)
    (set : U → Option U) (i : Nat) (s : State) :
    (∃ u u', units[i]? = some u ∧ set u = some u' ∧ setpUnit units put set i s = .next (put s i u'))
      ∨ (∃ u, units[i]? = some u ∧ set u = none
          ∧ setpUnit units put set i s = .next (raise .illegalRegister s))
      ∨ (units[i]? = none ∧ setpUnit units put set i s = .next (raise .illegalInstance s)) := by
  unfold setpUnit withInstance withRegister
  cases h : units[i]? with
  | none => exact .inr (.inr ⟨rfl, rfl⟩)
  | some u =>
    cases hs : set u with
    | some u' => exact .inl ⟨u, u', rfl, hs, by simp [hs]⟩
    | none => exact .inr (.inl ⟨u, rfl, hs, by simp [hs]⟩)

/-- Everything a format G command does (R97). -/
theorem getpUnit_cases {U : Type} (units : List U) (get : U → Option Word32) (i : Nat) (s : State) :
    (∃ u v, units[i]? = some u ∧ get u = some v ∧ getpUnit units get i s = .next (putResp s v))
      ∨ (∃ u, units[i]? = some u ∧ get u = none
          ∧ getpUnit units get i s = .next (raise .illegalRegister s))
      ∨ (units[i]? = none ∧ getpUnit units get i s = .next (raise .illegalInstance s)) := by
  unfold getpUnit withInstance withRegister
  cases h : units[i]? with
  | none => exact .inr (.inr ⟨rfl, rfl⟩)
  | some u =>
    cases hs : get u with
    | some v => exact .inl ⟨u, v, rfl, hs, by simp [hs]⟩
    | none => exact .inr (.inl ⟨u, rfl, hs, by simp [hs]⟩)

/-! ### A block command as a `BlockResult` -/

/-- `put` writes one unit's registers and leaves the block memory, the configuration and the reset count
alone. Each `put` of `Machine/Ops.lean` is such (`fun _ _ => ⟨rfl, rfl, rfl, rfl⟩`). -/
def KeepsBlocks {U : Type} (put : State → U → State) : Prop :=
  ∀ (s s' : State) (u : U), (put s u).blocks = s.blocks ∧ (put s u).cfg = s.cfg
    ∧ (put s u).resets = s.resets
    ∧ { put s u with blocks := s'.blocks } = put { s with blocks := s'.blocks } u

theorem processBlock_blockResult {U : Type} {put : State → U → State} {rule : SampleRule U}
    {P : U → Prop} (bD bS bM : Nat) {u : U} {s : State} (hP : P u)
    (hrule : ∀ u x m, P u → ∃ y u', rule u x m = .ok (y, u') ∧ P u') (hput : KeepsBlocks put) :
    BlockResult rule put bD bS bM u s (processBlock rule put bD bS bM u s) := by
  obtain ⟨u', s', e, -, hs, ⟨us, h0, hlast, hsamples⟩, hframe, -⟩ :=
    processBlock_spec hrule put bD bS bM u s hP
  obtain ⟨hblocks, hcfg, hresets, -⟩ := hput s' s' u'
  refine ⟨put s' u', u', e, ?_, ⟨us, h0, hlast, fun n hn => ?_⟩, fun a ha => ?_⟩
  · rw [hblocks, (hput s s' u').2.2.2, ← hs]
  · have h := hsamples n hn
    unfold readSample at h ⊢
    rw [hblocks, hcfg, hresets]
    exact h
  · rw [hblocks]
    exact hframe a ha

/-- Format P with every check passed (R93, R120). -/
theorem procUnit_blockResult {U : Type} {units : List U} {put : State → Nat → U → State}
    {rule : Config → SampleRule U} {P : U → Prop} {i bD bS : Nat} {u : U} {s : State}
    (hu : units[i]? = some u) (hP : P u)
    (hrule : ∀ u x m, P u → ∃ y u', rule s.cfg u x m = .ok (y, u') ∧ P u')
    (hput : KeepsBlocks fun s' u' => put s' i u')
    (hD : bD < s.cfg.nBlk) (hS : bS < s.cfg.nBlk) (hne : bD ≠ bS) :
    BlockResult (rule s.cfg) (fun s' u' => put s' i u') bD bS bS u s
      (procUnit units put rule i bD bS s) := by
  unfold procUnit
  rw [withInstance_some _ _ hu, withBlocks_ok _ (by simp; omega),
    withoutAlias_ok _ _ (by simpa using hne)]
  exact processBlock_blockResult bD bS bS hP hrule hput

/-- Format I with every check passed (R94, R121). -/
theorem prociUnit_blockResult {U : Type} {units : List U} {put : State → Nat → U → State}
    {rule : Config → SampleRule U} {P : U → Prop} {i bX : Nat} {u : U} {s : State}
    (hu : units[i]? = some u) (hP : P u)
    (hrule : ∀ u x m, P u → ∃ y u', rule s.cfg u x m = .ok (y, u') ∧ P u')
    (hput : KeepsBlocks fun s' u' => put s' i u') (hX : bX < s.cfg.nBlk) :
    BlockResult (rule s.cfg) (fun s' u' => put s' i u') bX bX bX u s
      (prociUnit units put rule i bX s) := by
  unfold prociUnit
  rw [withInstance_some _ _ hu, withBlocks_ok _ (by simp; omega)]
  exact processBlock_blockResult bX bX bX hP hrule hput

/-- Format P with a modulation block, every check passed (R82, R93). -/
theorem procModUnit_blockResult {U : Type} {units : List U} {put : State → Nat → U → State}
    {rule : Config → SampleRule U} {start : U → U} {P : U → Prop} {i bD bS bM : Nat} {u : U}
    {s : State} (hu : units[i]? = some u) (hP : P (start u))
    (hrule : ∀ u x m, P u → ∃ y u', rule s.cfg u x m = .ok (y, u') ∧ P u')
    (hput : KeepsBlocks fun s' u' => put s' i u')
    (hD : bD < s.cfg.nBlk) (hS : bS < s.cfg.nBlk) (hM : bM < s.cfg.nBlk) (hDS : bD ≠ bS)
    (hMD : bM ≠ bD) :
    BlockResult (rule s.cfg) (fun s' u' => put s' i u') bD bS bM (start u) s
      (procModUnit units put start rule i bD bS bM s) := by
  unfold procModUnit
  rw [withInstance_some _ _ hu, withBlocks_ok _ (by simp; omega),
    withoutAlias_ok _ _ (by simp; omega)]
  exact processBlock_blockResult bD bS bM hP hrule hput

/-- Format I with a modulation block, every check passed (R82, R94). -/
theorem prociModUnit_blockResult {U : Type} {units : List U} {put : State → Nat → U → State}
    {rule : Config → SampleRule U} {start : U → U} {P : U → Prop} {i bX bM : Nat} {u : U}
    {s : State} (hu : units[i]? = some u) (hP : P (start u))
    (hrule : ∀ u x m, P u → ∃ y u', rule s.cfg u x m = .ok (y, u') ∧ P u')
    (hput : KeepsBlocks fun s' u' => put s' i u')
    (hX : bX < s.cfg.nBlk) (hM : bM < s.cfg.nBlk) (hMX : bM ≠ bX) :
    BlockResult (rule s.cfg) (fun s' u' => put s' i u') bX bX bM (start u) s
      (prociModUnit units put start rule i bX bM s) := by
  unfold prociModUnit
  rw [withInstance_some _ _ hu, withBlocks_ok _ (by simp; omega),
    withoutAlias_ok _ _ (by simp; omega)]
  exact processBlock_blockResult bX bX bM hP hrule hput

end Sys2Proof.Machine
end

