-- ==== Sys2Proof/Laws/Fields.lean ====
section
/-! SUPPORT. The fields of a packed command word are what was packed (R91). -/

namespace Sys2Proof

theorem packCommand_toNat (op inst ra rb imm : Nat) :
    (packCommand op inst ra rb imm).toNat
      = op % 256 * 2 ^ 56 + inst % 256 * 2 ^ 48 + ra % 256 * 2 ^ 40 + rb % 256 * 2 ^ 32
        + imm % 2 ^ 32 := by
  unfold packCommand
  rw [BitVec.toNat_ofNat]
  omega

@[simp] theorem cwOp_packCommand (op inst ra rb imm : Nat) :
    cwOp (packCommand op inst ra rb imm) = op % 256 := by
  unfold cwOp cwField
  rw [packCommand_toNat]
  omega

@[simp] theorem cwInst_packCommand (op inst ra rb imm : Nat) :
    cwInst (packCommand op inst ra rb imm) = inst % 256 := by
  unfold cwInst cwField
  rw [packCommand_toNat]
  omega

@[simp] theorem cwRa_packCommand (op inst ra rb imm : Nat) :
    cwRa (packCommand op inst ra rb imm) = ra % 256 := by
  unfold cwRa cwField
  rw [packCommand_toNat]
  omega

@[simp] theorem cwRb_packCommand (op inst ra rb imm : Nat) :
    cwRb (packCommand op inst ra rb imm) = rb % 256 := by
  unfold cwRb cwField
  rw [packCommand_toNat]
  omega

@[simp] theorem cwImm_packCommand (op inst ra rb imm : Nat) :
    cwImm (packCommand op inst ra rb imm) = imm % 2 ^ 32 := by
  unfold cwImm cwField
  rw [packCommand_toNat]
  omega

/-- A word is the word of its five fields. -/
theorem packCommand_fields (cw : CmdWord) :
    packCommand (cwOp cw) (cwInst cw) (cwRa cw) (cwRb cw) (cwImm cw) = cw := by
  apply BitVec.eq_of_toNat_eq
  have h : cw.toNat < 2 ^ 64 := cw.isLt
  rw [packCommand_toNat]
  unfold cwOp cwInst cwRa cwRb cwImm cwField
  omega

/-- What a must-be-zero test lets through (R101). -/
theorem zeroed_eq_some {ok : Bool} {i j : Instr} (h : zeroed ok i = some j) : ok = true ∧ i = j := by
  unfold zeroed at h
  split at h
  · exact ⟨‹_›, by cases h; rfl⟩
  · cases h

/-- A packed word decodes by the fields that were packed into it. -/
theorem decode_packCommand {op inst ra rb imm : Nat} (h : op < 256) (hi : inst < 256) (ha : ra < 256)
    (hb : rb < 256) (hm : imm < 2 ^ 32) :
    decode (packCommand op inst ra rb imm) = decodeFields op inst ra rb imm := by
  unfold decode
  rw [cwOp_packCommand, cwInst_packCommand, cwRa_packCommand, cwRb_packCommand, cwImm_packCommand,
    Nat.mod_eq_of_lt h, Nat.mod_eq_of_lt hi, Nat.mod_eq_of_lt ha, Nat.mod_eq_of_lt hb,
    Nat.mod_eq_of_lt hm]

/-- `AND` of two numbers, each cut at bit `k`. -/
theorem and_split (k a b c d : Nat) (hb : b < 2 ^ k) (hd : d < 2 ^ k) :
    (a * 2 ^ k + b) &&& (c * 2 ^ k + d) = (a &&& c) * 2 ^ k + (b &&& d) := by
  have hand : b &&& d < 2 ^ k := Nat.and_lt_two_pow b hd
  apply Nat.eq_of_testBit_eq
  intro j
  simp only [Nat.testBit_and, Nat.mul_comm _ (2 ^ k), Nat.testBit_two_pow_mul_add _ hb,
    Nat.testBit_two_pow_mul_add _ hd, Nat.testBit_two_pow_mul_add _ hand]
  split <;> rfl

/-- `AND` of two packed words, field by field: a mask of R100 keeps or clears whole fields. -/
theorem packCommand_and (op inst ra rb imm op' inst' ra' rb' imm' : Nat) :
    packCommand op inst ra rb imm &&& packCommand op' inst' ra' rb' imm'
      = packCommand (op % 256 &&& op' % 256) (inst % 256 &&& inst' % 256) (ra % 256 &&& ra' % 256)
          (rb % 256 &&& rb' % 256) (imm % 2 ^ 32 &&& imm' % 2 ^ 32) := by
  have lt256 : ∀ x y : Nat, x % 256 &&& y % 256 < 256 := fun x y =>
    Nat.and_lt_two_pow (n := 8) _ (Nat.mod_lt _ (by decide))
  have lt32 : imm % 2 ^ 32 &&& imm' % 2 ^ 32 < 2 ^ 32 :=
    Nat.and_lt_two_pow _ (Nat.mod_lt _ (by decide))
  have regroup : ∀ a b c d e : Nat, a * 2 ^ 56 + b * 2 ^ 48 + c * 2 ^ 40 + d * 2 ^ 32 + e
      = (((a * 2 ^ 8 + b) * 2 ^ 8 + c) * 2 ^ 8 + d) * 2 ^ 32 + e := by intros; omega
  apply BitVec.eq_of_toNat_eq
  rw [BitVec.toNat_and]
  simp only [packCommand_toNat, Nat.mod_eq_of_lt (lt256 _ _), Nat.mod_eq_of_lt lt32, regroup]
  have lt8 : ∀ x : Nat, x % 256 < 2 ^ 8 := fun x => Nat.mod_lt _ (by decide)
  rw [and_split 32 _ _ _ _ (Nat.mod_lt _ (by decide)) (Nat.mod_lt _ (by decide)),
    and_split 8 _ _ _ _ (lt8 _) (lt8 _), and_split 8 _ _ _ _ (lt8 _) (lt8 _),
    and_split 8 _ _ _ _ (lt8 _) (lt8 _)]

/-- A modulation block number has no bit in the part of the immediate that must be zero (R93). -/
theorem modField_and (m : Nat) : m % 256 % 2 ^ 32 &&& 0xFFFFFF00 % 2 ^ 32 = 0 := by
  rw [Nat.mod_eq_of_lt (show m % 256 < 2 ^ 32 by omega)]
  have h := and_split 8 0 (m % 256) 0xFFFFFF 0 (Nat.mod_lt _ (by decide)) (by decide)
  simpa using h

end Sys2Proof
end

