-- ==== Sys2Proof/Laws/PerInstr.lean ====
section
/-! SUPPORT. One lemma for each command: the row of R100 that has its mnemonic covers its encoding. -/

namespace Sys2Proof.Laws

/-- The opcode table has a row with the command's mnemonic that covers the command's word. -/
def RowMatch.Statement (i : Instr) : Prop :=
  ∃ r ∈ opcodeTable, r.mnemonic = mnemonic i ∧ r.covers (encode i) = true

/-- A row covers a packed word when its mask, packed, keeps the fields that its pattern fixes. -/
theorem RowMatch.intro {i : Instr} {k : Nat} {r : OpRow} (hrow : opcodeTable[k]? = some r)
    (hname : r.mnemonic = mnemonic i) {op inst ra rb imm op' inst' ra' rb' imm' : Nat}
    (hword : encode i = packCommand op inst ra rb imm)
    (hmask : r.mask = packCommand op' inst' ra' rb' imm')
    (hpattern : packCommand (op % 256 &&& op' % 256) (inst % 256 &&& inst' % 256)
      (ra % 256 &&& ra' % 256) (rb % 256 &&& rb' % 256) (imm % 2 ^ 32 &&& imm' % 2 ^ 32) = r.pattern) :
    RowMatch.Statement i := by
  refine ⟨r, List.mem_of_getElem? hrow, hname, ?_⟩
  unfold OpRow.covers
  rw [hword, hmask, packCommand_and, hpattern]
  exact beq_self_eq_true _

theorem RowMatch.sysNop :
    RowMatch.Statement (.sysNop) :=
  RowMatch.intro (k := 0) (op' := 0xFF) (inst' := 0xFF) (ra' := 0xFF) (rb' := 0xFF) (imm' := 0xFFFFFFFF)
    rfl rfl rfl rfl (by simp only [Nat.zero_mod, Nat.zero_and]; rfl)

theorem RowMatch.sysSetp (reg : Nat) (imm : Word32) :
    RowMatch.Statement (.sysSetp reg imm) :=
  RowMatch.intro (k := 1) (op' := 0xFF) (inst' := 0xFF) (ra' := 0x0) (rb' := 0xFF) (imm' := 0x0)
    rfl rfl rfl rfl (by simp only [Nat.zero_mod, Nat.and_zero, Nat.zero_and]; rfl)

theorem RowMatch.sysGetp (reg : Nat) :
    RowMatch.Statement (.sysGetp reg) :=
  RowMatch.intro (k := 2) (op' := 0xFF) (inst' := 0xFF) (ra' := 0x0) (rb' := 0xFF) (imm' := 0xFFFFFFFF)
    rfl rfl rfl rfl (by simp only [Nat.zero_mod, Nat.and_zero, Nat.zero_and]; rfl)

theorem RowMatch.bufClr (bD : Nat) :
    RowMatch.Statement (.bufClr bD) :=
  RowMatch.intro (k := 3) (op' := 0xFF) (inst' := 0xFF) (ra' := 0x0) (rb' := 0xFF) (imm' := 0xFFFFFFFF)
    rfl rfl rfl rfl (by simp only [Nat.zero_mod, Nat.and_zero, Nat.zero_and]; rfl)

theorem RowMatch.bufCpy (bD bS : Nat) :
    RowMatch.Statement (.bufCpy bD bS) :=
  RowMatch.intro (k := 4) (op' := 0xFF) (inst' := 0xFF) (ra' := 0x0) (rb' := 0x0) (imm' := 0xFFFFFFFF)
    rfl rfl rfl rfl (by simp only [Nat.zero_mod, Nat.and_zero, Nat.zero_and]; rfl)

theorem RowMatch.bufAcc (bD bS : Nat) :
    RowMatch.Statement (.bufAcc bD bS) :=
  RowMatch.intro (k := 5) (op' := 0xFF) (inst' := 0xFF) (ra' := 0x0) (rb' := 0x0) (imm' := 0xFFFFFFFF)
    rfl rfl rfl rfl (by simp only [Nat.zero_mod, Nat.and_zero, Nat.zero_and]; rfl)

theorem RowMatch.oscProc (i bD bS : Nat) :
    RowMatch.Statement (.oscProc i bD bS) :=
  RowMatch.intro (k := 6) (op' := 0xFF) (inst' := 0x0) (ra' := 0x0) (rb' := 0x0) (imm' := 0xFFFFFFFF)
    rfl rfl rfl rfl (by simp only [Nat.zero_mod, Nat.and_zero, Nat.zero_and]; rfl)

theorem RowMatch.oscProci (i bX : Nat) :
    RowMatch.Statement (.oscProci i bX) :=
  RowMatch.intro (k := 7) (op' := 0xFF) (inst' := 0x0) (ra' := 0x0) (rb' := 0xFF) (imm' := 0xFFFFFFFF)
    rfl rfl rfl rfl (by simp only [Nat.zero_mod, Nat.and_zero, Nat.zero_and]; rfl)

theorem RowMatch.oscReset (i : Nat) :
    RowMatch.Statement (.oscReset i) :=
  RowMatch.intro (k := 8) (op' := 0xFF) (inst' := 0x0) (ra' := 0xFF) (rb' := 0xFF) (imm' := 0xFFFFFFFF)
    rfl rfl rfl rfl (by simp only [Nat.zero_mod, Nat.and_zero, Nat.zero_and]; rfl)

theorem RowMatch.oscSetp (i reg : Nat) (imm : Word32) :
    RowMatch.Statement (.oscSetp i reg imm) :=
  RowMatch.intro (k := 9) (op' := 0xFF) (inst' := 0x0) (ra' := 0x0) (rb' := 0xFF) (imm' := 0x0)
    rfl rfl rfl rfl (by simp only [Nat.zero_mod, Nat.and_zero, Nat.zero_and]; rfl)

theorem RowMatch.oscGetp (i reg : Nat) :
    RowMatch.Statement (.oscGetp i reg) :=
  RowMatch.intro (k := 10) (op' := 0xFF) (inst' := 0x0) (ra' := 0x0) (rb' := 0xFF) (imm' := 0xFFFFFFFF)
    rfl rfl rfl rfl (by simp only [Nat.zero_mod, Nat.and_zero, Nat.zero_and]; rfl)

theorem RowMatch.fltProc (i bD bS : Nat) :
    RowMatch.Statement (.fltProc i bD bS) :=
  RowMatch.intro (k := 11) (op' := 0xFF) (inst' := 0x0) (ra' := 0x0) (rb' := 0x0) (imm' := 0xFFFFFFFF)
    rfl rfl rfl rfl (by simp only [Nat.zero_mod, Nat.and_zero, Nat.zero_and]; rfl)

theorem RowMatch.fltProci (i bX : Nat) :
    RowMatch.Statement (.fltProci i bX) :=
  RowMatch.intro (k := 12) (op' := 0xFF) (inst' := 0x0) (ra' := 0x0) (rb' := 0xFF) (imm' := 0xFFFFFFFF)
    rfl rfl rfl rfl (by simp only [Nat.zero_mod, Nat.and_zero, Nat.zero_and]; rfl)

theorem RowMatch.fltReset (i : Nat) :
    RowMatch.Statement (.fltReset i) :=
  RowMatch.intro (k := 13) (op' := 0xFF) (inst' := 0x0) (ra' := 0xFF) (rb' := 0xFF) (imm' := 0xFFFFFFFF)
    rfl rfl rfl rfl (by simp only [Nat.zero_mod, Nat.and_zero, Nat.zero_and]; rfl)

theorem RowMatch.fltSetp (i reg : Nat) (imm : Word32) :
    RowMatch.Statement (.fltSetp i reg imm) :=
  RowMatch.intro (k := 14) (op' := 0xFF) (inst' := 0x0) (ra' := 0x0) (rb' := 0xFF) (imm' := 0x0)
    rfl rfl rfl rfl (by simp only [Nat.zero_mod, Nat.and_zero, Nat.zero_and]; rfl)

theorem RowMatch.fltGetp (i reg : Nat) :
    RowMatch.Statement (.fltGetp i reg) :=
  RowMatch.intro (k := 15) (op' := 0xFF) (inst' := 0x0) (ra' := 0x0) (rb' := 0xFF) (imm' := 0xFFFFFFFF)
    rfl rfl rfl rfl (by simp only [Nat.zero_mod, Nat.and_zero, Nat.zero_and]; rfl)

theorem RowMatch.envProc (i bD bS : Nat) :
    RowMatch.Statement (.envProc i bD bS) :=
  RowMatch.intro (k := 16) (op' := 0xFF) (inst' := 0x0) (ra' := 0x0) (rb' := 0x0) (imm' := 0xFFFFFFFF)
    rfl rfl rfl rfl (by simp only [Nat.zero_mod, Nat.and_zero, Nat.zero_and]; rfl)

theorem RowMatch.envProci (i bX : Nat) :
    RowMatch.Statement (.envProci i bX) :=
  RowMatch.intro (k := 17) (op' := 0xFF) (inst' := 0x0) (ra' := 0x0) (rb' := 0xFF) (imm' := 0xFFFFFFFF)
    rfl rfl rfl rfl (by simp only [Nat.zero_mod, Nat.and_zero, Nat.zero_and]; rfl)

theorem RowMatch.envReset (i : Nat) :
    RowMatch.Statement (.envReset i) :=
  RowMatch.intro (k := 18) (op' := 0xFF) (inst' := 0x0) (ra' := 0xFF) (rb' := 0xFF) (imm' := 0xFFFFFFFF)
    rfl rfl rfl rfl (by simp only [Nat.zero_mod, Nat.and_zero, Nat.zero_and]; rfl)

theorem RowMatch.envSetp (i reg : Nat) (imm : Word32) :
    RowMatch.Statement (.envSetp i reg imm) :=
  RowMatch.intro (k := 19) (op' := 0xFF) (inst' := 0x0) (ra' := 0x0) (rb' := 0xFF) (imm' := 0x0)
    rfl rfl rfl rfl (by simp only [Nat.zero_mod, Nat.and_zero, Nat.zero_and]; rfl)

theorem RowMatch.envGetp (i reg : Nat) :
    RowMatch.Statement (.envGetp i reg) :=
  RowMatch.intro (k := 20) (op' := 0xFF) (inst' := 0x0) (ra' := 0x0) (rb' := 0xFF) (imm' := 0xFFFFFFFF)
    rfl rfl rfl rfl (by simp only [Nat.zero_mod, Nat.and_zero, Nat.zero_and]; rfl)

theorem RowMatch.envStart (i : Nat) :
    RowMatch.Statement (.envStart i) :=
  RowMatch.intro (k := 21) (op' := 0xFF) (inst' := 0x0) (ra' := 0xFF) (rb' := 0xFF) (imm' := 0xFFFFFFFF)
    rfl rfl rfl rfl (by simp only [Nat.zero_mod, Nat.and_zero, Nat.zero_and]; rfl)

theorem RowMatch.envRel (i : Nat) :
    RowMatch.Statement (.envRel i) :=
  RowMatch.intro (k := 22) (op' := 0xFF) (inst' := 0x0) (ra' := 0xFF) (rb' := 0xFF) (imm' := 0xFFFFFFFF)
    rfl rfl rfl rfl (by simp only [Nat.zero_mod, Nat.and_zero, Nat.zero_and]; rfl)

theorem RowMatch.envStep (i : Nat) :
    RowMatch.Statement (.envStep i) :=
  RowMatch.intro (k := 23) (op' := 0xFF) (inst' := 0x0) (ra' := 0xFF) (rb' := 0xFF) (imm' := 0xFFFFFFFF)
    rfl rfl rfl rfl (by simp only [Nat.zero_mod, Nat.and_zero, Nat.zero_and]; rfl)

theorem RowMatch.dlyProc (i bD bS : Nat) :
    RowMatch.Statement (.dlyProc i bD bS) :=
  RowMatch.intro (k := 24) (op' := 0xFF) (inst' := 0x0) (ra' := 0x0) (rb' := 0x0) (imm' := 0xFFFFFFFF)
    rfl rfl rfl rfl (by simp only [Nat.zero_mod, Nat.and_zero, Nat.zero_and]; rfl)

theorem RowMatch.dlyProci (i bX : Nat) :
    RowMatch.Statement (.dlyProci i bX) :=
  RowMatch.intro (k := 25) (op' := 0xFF) (inst' := 0x0) (ra' := 0x0) (rb' := 0xFF) (imm' := 0xFFFFFFFF)
    rfl rfl rfl rfl (by simp only [Nat.zero_mod, Nat.and_zero, Nat.zero_and]; rfl)

theorem RowMatch.dlyReset (i : Nat) :
    RowMatch.Statement (.dlyReset i) :=
  RowMatch.intro (k := 26) (op' := 0xFF) (inst' := 0x0) (ra' := 0xFF) (rb' := 0xFF) (imm' := 0xFFFFFFFF)
    rfl rfl rfl rfl (by simp only [Nat.zero_mod, Nat.and_zero, Nat.zero_and]; rfl)

theorem RowMatch.dlySetp (i reg : Nat) (imm : Word32) :
    RowMatch.Statement (.dlySetp i reg imm) :=
  RowMatch.intro (k := 27) (op' := 0xFF) (inst' := 0x0) (ra' := 0x0) (rb' := 0xFF) (imm' := 0x0)
    rfl rfl rfl rfl (by simp only [Nat.zero_mod, Nat.and_zero, Nat.zero_and]; rfl)

theorem RowMatch.dlyGetp (i reg : Nat) :
    RowMatch.Statement (.dlyGetp i reg) :=
  RowMatch.intro (k := 28) (op' := 0xFF) (inst' := 0x0) (ra' := 0x0) (rb' := 0xFF) (imm' := 0xFFFFFFFF)
    rfl rfl rfl rfl (by simp only [Nat.zero_mod, Nat.and_zero, Nat.zero_and]; rfl)

theorem RowMatch.cmbProc (i bD bS : Nat) :
    RowMatch.Statement (.cmbProc i bD bS) :=
  RowMatch.intro (k := 29) (op' := 0xFF) (inst' := 0x0) (ra' := 0x0) (rb' := 0x0) (imm' := 0xFFFFFFFF)
    rfl rfl rfl rfl (by simp only [Nat.zero_mod, Nat.and_zero, Nat.zero_and]; rfl)

theorem RowMatch.cmbProci (i bX : Nat) :
    RowMatch.Statement (.cmbProci i bX) :=
  RowMatch.intro (k := 30) (op' := 0xFF) (inst' := 0x0) (ra' := 0x0) (rb' := 0xFF) (imm' := 0xFFFFFFFF)
    rfl rfl rfl rfl (by simp only [Nat.zero_mod, Nat.and_zero, Nat.zero_and]; rfl)

theorem RowMatch.cmbReset (i : Nat) :
    RowMatch.Statement (.cmbReset i) :=
  RowMatch.intro (k := 31) (op' := 0xFF) (inst' := 0x0) (ra' := 0xFF) (rb' := 0xFF) (imm' := 0xFFFFFFFF)
    rfl rfl rfl rfl (by simp only [Nat.zero_mod, Nat.and_zero, Nat.zero_and]; rfl)

theorem RowMatch.cmbSetp (i reg : Nat) (imm : Word32) :
    RowMatch.Statement (.cmbSetp i reg imm) :=
  RowMatch.intro (k := 32) (op' := 0xFF) (inst' := 0x0) (ra' := 0x0) (rb' := 0xFF) (imm' := 0x0)
    rfl rfl rfl rfl (by simp only [Nat.zero_mod, Nat.and_zero, Nat.zero_and]; rfl)

theorem RowMatch.cmbGetp (i reg : Nat) :
    RowMatch.Statement (.cmbGetp i reg) :=
  RowMatch.intro (k := 33) (op' := 0xFF) (inst' := 0x0) (ra' := 0x0) (rb' := 0xFF) (imm' := 0xFFFFFFFF)
    rfl rfl rfl rfl (by simp only [Nat.zero_mod, Nat.and_zero, Nat.zero_and]; rfl)

theorem RowMatch.apfProc (i bD bS : Nat) :
    RowMatch.Statement (.apfProc i bD bS) :=
  RowMatch.intro (k := 34) (op' := 0xFF) (inst' := 0x0) (ra' := 0x0) (rb' := 0x0) (imm' := 0xFFFFFFFF)
    rfl rfl rfl rfl (by simp only [Nat.zero_mod, Nat.and_zero, Nat.zero_and]; rfl)

theorem RowMatch.apfProci (i bX : Nat) :
    RowMatch.Statement (.apfProci i bX) :=
  RowMatch.intro (k := 35) (op' := 0xFF) (inst' := 0x0) (ra' := 0x0) (rb' := 0xFF) (imm' := 0xFFFFFFFF)
    rfl rfl rfl rfl (by simp only [Nat.zero_mod, Nat.and_zero, Nat.zero_and]; rfl)

theorem RowMatch.apfReset (i : Nat) :
    RowMatch.Statement (.apfReset i) :=
  RowMatch.intro (k := 36) (op' := 0xFF) (inst' := 0x0) (ra' := 0xFF) (rb' := 0xFF) (imm' := 0xFFFFFFFF)
    rfl rfl rfl rfl (by simp only [Nat.zero_mod, Nat.and_zero, Nat.zero_and]; rfl)

theorem RowMatch.apfSetp (i reg : Nat) (imm : Word32) :
    RowMatch.Statement (.apfSetp i reg imm) :=
  RowMatch.intro (k := 37) (op' := 0xFF) (inst' := 0x0) (ra' := 0x0) (rb' := 0xFF) (imm' := 0x0)
    rfl rfl rfl rfl (by simp only [Nat.zero_mod, Nat.and_zero, Nat.zero_and]; rfl)

theorem RowMatch.apfGetp (i reg : Nat) :
    RowMatch.Statement (.apfGetp i reg) :=
  RowMatch.intro (k := 38) (op' := 0xFF) (inst' := 0x0) (ra' := 0x0) (rb' := 0xFF) (imm' := 0xFFFFFFFF)
    rfl rfl rfl rfl (by simp only [Nat.zero_mod, Nat.and_zero, Nat.zero_and]; rfl)

theorem RowMatch.revProc (i bD bS : Nat) :
    RowMatch.Statement (.revProc i bD bS) :=
  RowMatch.intro (k := 39) (op' := 0xFF) (inst' := 0x0) (ra' := 0x0) (rb' := 0x0) (imm' := 0xFFFFFFFF)
    rfl rfl rfl rfl (by simp only [Nat.zero_mod, Nat.and_zero, Nat.zero_and]; rfl)

theorem RowMatch.revProci (i bX : Nat) :
    RowMatch.Statement (.revProci i bX) :=
  RowMatch.intro (k := 40) (op' := 0xFF) (inst' := 0x0) (ra' := 0x0) (rb' := 0xFF) (imm' := 0xFFFFFFFF)
    rfl rfl rfl rfl (by simp only [Nat.zero_mod, Nat.and_zero, Nat.zero_and]; rfl)

theorem RowMatch.revReset (i : Nat) :
    RowMatch.Statement (.revReset i) :=
  RowMatch.intro (k := 41) (op' := 0xFF) (inst' := 0x0) (ra' := 0xFF) (rb' := 0xFF) (imm' := 0xFFFFFFFF)
    rfl rfl rfl rfl (by simp only [Nat.zero_mod, Nat.and_zero, Nat.zero_and]; rfl)

theorem RowMatch.revSetp (i reg : Nat) (imm : Word32) :
    RowMatch.Statement (.revSetp i reg imm) :=
  RowMatch.intro (k := 42) (op' := 0xFF) (inst' := 0x0) (ra' := 0x0) (rb' := 0xFF) (imm' := 0x0)
    rfl rfl rfl rfl (by simp only [Nat.zero_mod, Nat.and_zero, Nat.zero_and]; rfl)

theorem RowMatch.revGetp (i reg : Nat) :
    RowMatch.Statement (.revGetp i reg) :=
  RowMatch.intro (k := 43) (op' := 0xFF) (inst' := 0x0) (ra' := 0x0) (rb' := 0xFF) (imm' := 0xFFFFFFFF)
    rfl rfl rfl rfl (by simp only [Nat.zero_mod, Nat.and_zero, Nat.zero_and]; rfl)

theorem RowMatch.phaProc (i bD bS bM : Nat) :
    RowMatch.Statement (.phaProc i bD bS bM) :=
  RowMatch.intro (k := 44) (op' := 0xFF) (inst' := 0x0) (ra' := 0x0) (rb' := 0x0) (imm' := 0xFFFFFF00)
    rfl rfl rfl rfl (by simp only [modField_and, Nat.zero_mod, Nat.and_zero]; rfl)

theorem RowMatch.phaProci (i bX bM : Nat) :
    RowMatch.Statement (.phaProci i bX bM) :=
  RowMatch.intro (k := 45) (op' := 0xFF) (inst' := 0x0) (ra' := 0x0) (rb' := 0xFF) (imm' := 0xFFFFFF00)
    rfl rfl rfl rfl (by simp only [modField_and, Nat.zero_mod, Nat.and_zero]; rfl)

theorem RowMatch.phaReset (i : Nat) :
    RowMatch.Statement (.phaReset i) :=
  RowMatch.intro (k := 46) (op' := 0xFF) (inst' := 0x0) (ra' := 0xFF) (rb' := 0xFF) (imm' := 0xFFFFFFFF)
    rfl rfl rfl rfl (by simp only [Nat.zero_mod, Nat.and_zero, Nat.zero_and]; rfl)

theorem RowMatch.phaSetp (i reg : Nat) (imm : Word32) :
    RowMatch.Statement (.phaSetp i reg imm) :=
  RowMatch.intro (k := 47) (op' := 0xFF) (inst' := 0x0) (ra' := 0x0) (rb' := 0xFF) (imm' := 0x0)
    rfl rfl rfl rfl (by simp only [Nat.zero_mod, Nat.and_zero, Nat.zero_and]; rfl)

theorem RowMatch.phaGetp (i reg : Nat) :
    RowMatch.Statement (.phaGetp i reg) :=
  RowMatch.intro (k := 48) (op' := 0xFF) (inst' := 0x0) (ra' := 0x0) (rb' := 0xFF) (imm' := 0xFFFFFFFF)
    rfl rfl rfl rfl (by simp only [Nat.zero_mod, Nat.and_zero, Nat.zero_and]; rfl)

theorem RowMatch.vibProc (i bD bS bM : Nat) :
    RowMatch.Statement (.vibProc i bD bS bM) :=
  RowMatch.intro (k := 49) (op' := 0xFF) (inst' := 0x0) (ra' := 0x0) (rb' := 0x0) (imm' := 0xFFFFFF00)
    rfl rfl rfl rfl (by simp only [modField_and, Nat.zero_mod, Nat.and_zero]; rfl)

theorem RowMatch.vibProci (i bX bM : Nat) :
    RowMatch.Statement (.vibProci i bX bM) :=
  RowMatch.intro (k := 50) (op' := 0xFF) (inst' := 0x0) (ra' := 0x0) (rb' := 0xFF) (imm' := 0xFFFFFF00)
    rfl rfl rfl rfl (by simp only [modField_and, Nat.zero_mod, Nat.and_zero]; rfl)

theorem RowMatch.vibReset (i : Nat) :
    RowMatch.Statement (.vibReset i) :=
  RowMatch.intro (k := 51) (op' := 0xFF) (inst' := 0x0) (ra' := 0xFF) (rb' := 0xFF) (imm' := 0xFFFFFFFF)
    rfl rfl rfl rfl (by simp only [Nat.zero_mod, Nat.and_zero, Nat.zero_and]; rfl)

theorem RowMatch.vibSetp (i reg : Nat) (imm : Word32) :
    RowMatch.Statement (.vibSetp i reg imm) :=
  RowMatch.intro (k := 52) (op' := 0xFF) (inst' := 0x0) (ra' := 0x0) (rb' := 0xFF) (imm' := 0x0)
    rfl rfl rfl rfl (by simp only [Nat.zero_mod, Nat.and_zero, Nat.zero_and]; rfl)

theorem RowMatch.vibGetp (i reg : Nat) :
    RowMatch.Statement (.vibGetp i reg) :=
  RowMatch.intro (k := 53) (op' := 0xFF) (inst' := 0x0) (ra' := 0x0) (rb' := 0xFF) (imm' := 0xFFFFFFFF)
    rfl rfl rfl rfl (by simp only [Nat.zero_mod, Nat.and_zero, Nat.zero_and]; rfl)

theorem RowMatch.trmProc (i bD bS bM : Nat) :
    RowMatch.Statement (.trmProc i bD bS bM) :=
  RowMatch.intro (k := 54) (op' := 0xFF) (inst' := 0x0) (ra' := 0x0) (rb' := 0x0) (imm' := 0xFFFFFF00)
    rfl rfl rfl rfl (by simp only [modField_and, Nat.zero_mod, Nat.and_zero]; rfl)

theorem RowMatch.trmProci (i bX bM : Nat) :
    RowMatch.Statement (.trmProci i bX bM) :=
  RowMatch.intro (k := 55) (op' := 0xFF) (inst' := 0x0) (ra' := 0x0) (rb' := 0xFF) (imm' := 0xFFFFFF00)
    rfl rfl rfl rfl (by simp only [modField_and, Nat.zero_mod, Nat.and_zero]; rfl)

theorem RowMatch.trmReset (i : Nat) :
    RowMatch.Statement (.trmReset i) :=
  RowMatch.intro (k := 56) (op' := 0xFF) (inst' := 0x0) (ra' := 0xFF) (rb' := 0xFF) (imm' := 0xFFFFFFFF)
    rfl rfl rfl rfl (by simp only [Nat.zero_mod, Nat.and_zero, Nat.zero_and]; rfl)

theorem RowMatch.trmSetp (i reg : Nat) (imm : Word32) :
    RowMatch.Statement (.trmSetp i reg imm) :=
  RowMatch.intro (k := 57) (op' := 0xFF) (inst' := 0x0) (ra' := 0x0) (rb' := 0xFF) (imm' := 0x0)
    rfl rfl rfl rfl (by simp only [Nat.zero_mod, Nat.and_zero, Nat.zero_and]; rfl)

theorem RowMatch.trmGetp (i reg : Nat) :
    RowMatch.Statement (.trmGetp i reg) :=
  RowMatch.intro (k := 58) (op' := 0xFF) (inst' := 0x0) (ra' := 0x0) (rb' := 0xFF) (imm' := 0xFFFFFFFF)
    rfl rfl rfl rfl (by simp only [Nat.zero_mod, Nat.and_zero, Nat.zero_and]; rfl)

theorem RowMatch.pshProc (i bD bS : Nat) :
    RowMatch.Statement (.pshProc i bD bS) :=
  RowMatch.intro (k := 59) (op' := 0xFF) (inst' := 0x0) (ra' := 0x0) (rb' := 0x0) (imm' := 0xFFFFFFFF)
    rfl rfl rfl rfl (by simp only [Nat.zero_mod, Nat.and_zero, Nat.zero_and]; rfl)

theorem RowMatch.pshProci (i bX : Nat) :
    RowMatch.Statement (.pshProci i bX) :=
  RowMatch.intro (k := 60) (op' := 0xFF) (inst' := 0x0) (ra' := 0x0) (rb' := 0xFF) (imm' := 0xFFFFFFFF)
    rfl rfl rfl rfl (by simp only [Nat.zero_mod, Nat.and_zero, Nat.zero_and]; rfl)

theorem RowMatch.pshReset (i : Nat) :
    RowMatch.Statement (.pshReset i) :=
  RowMatch.intro (k := 61) (op' := 0xFF) (inst' := 0x0) (ra' := 0xFF) (rb' := 0xFF) (imm' := 0xFFFFFFFF)
    rfl rfl rfl rfl (by simp only [Nat.zero_mod, Nat.and_zero, Nat.zero_and]; rfl)

theorem RowMatch.pshSetp (i reg : Nat) (imm : Word32) :
    RowMatch.Statement (.pshSetp i reg imm) :=
  RowMatch.intro (k := 62) (op' := 0xFF) (inst' := 0x0) (ra' := 0x0) (rb' := 0xFF) (imm' := 0x0)
    rfl rfl rfl rfl (by simp only [Nat.zero_mod, Nat.and_zero, Nat.zero_and]; rfl)

theorem RowMatch.pshGetp (i reg : Nat) :
    RowMatch.Statement (.pshGetp i reg) :=
  RowMatch.intro (k := 63) (op' := 0xFF) (inst' := 0x0) (ra' := 0x0) (rb' := 0xFF) (imm' := 0xFFFFFFFF)
    rfl rfl rfl rfl (by simp only [Nat.zero_mod, Nat.and_zero, Nat.zero_and]; rfl)

end Sys2Proof.Laws
end

