-- ==== Sys2Proof/Laws/Units.lean ====
section
/-! SUPPORT. Every sample rule that reaches a private buffer stays within it: from a unit whose indices are
within their bounds it answers, and the unit it leaves is within the same bounds (R42). -/

namespace Sys2Proof.Machine

theorem except_bind_ok {A B : Type} (a : A) (f : A → Except Refusal B) :
    (Except.ok a >>= f) = f a := rfl

theorem mod_lt_of_lt {a b c : Nat} (h : a < c) : b % c < c := Nat.mod_lt _ (by omega)

theorem stepDly_ok {c : Config} (d : Dly) (x m : F32) (h : Dly.Ok c d) :
    ∃ y d', stepDly c d x m = .ok (y, d') ∧ Dly.Ok c d' := by
  obtain ⟨h1, h2, h3⟩ := h
  have hr : dlyReadCursor c d < c.capDly := mod_lt_of_lt h1
  have hw := memory_wf_wordStore (fMul x d.inLevel) h3 h1
  unfold stepDly
  rw [memWrite_of_lt _ _ h1, except_bind_ok, memRead_of_lt _ hr, except_bind_ok, memRead_of_lt _ h1,
    except_bind_ok, memWrite_of_lt _ _ h1, except_bind_ok]
  exact ⟨_, _, rfl, mod_lt_of_lt h1, h2, memory_wf_wordStore _ hw h1⟩

theorem combStep_ok {cap : Nat} (u : Line) (x : F32) (h : Line.Ok cap u) :
    ∃ y u', combStep cap u x = .ok (y, u') ∧ Line.Ok cap u' := by
  obtain ⟨h1, h2, h3, h4⟩ := h
  have hm : (u.cur + 1) % u.limit < u.limit := Nat.mod_lt _ h1
  simp only [combStep, bind, Except.bind, memWrite_of_lt _ _ h3, memRead_of_lt _ h3]
  exact ⟨_, _, rfl, h1, h2, by simp only; omega, memory_wf_wordStore _ h4 h3⟩

theorem apfStep_ok {cap : Nat} (u : Line) (x : F32) (h : Line.Ok cap u) :
    ∃ y u', apfStep cap u x = .ok (y, u') ∧ Line.Ok cap u' := by
  obtain ⟨h1, h2, h3, h4⟩ := h
  have hm : (u.cur + 1) % u.limit < u.limit := Nat.mod_lt _ h1
  simp only [apfStep, bind, Except.bind, memWrite_of_lt _ _ h3, memRead_of_lt _ h3]
  exact ⟨_, _, rfl, h1, h2, by simp only; omega, memory_wf_wordStore _ h4 h3⟩

theorem stepRev_ok {c : Config} (r : Rev) (x m : F32) (h : Rev.Ok c r) :
    ∃ y r', stepRev c r x m = .ok (y, r') ∧ Rev.Ok c r' ∧ r'.time = r.time := by
  obtain ⟨h0, h1, h2, h3, h4, h5, h6⟩ := h
  obtain ⟨y0, u0, e0, k0⟩ := combStep_ok r.cb0 x h0
  obtain ⟨y1, u1, e1, k1⟩ := combStep_ok r.cb1 x h1
  obtain ⟨y2, u2, e2, k2⟩ := combStep_ok r.cb2 x h2
  obtain ⟨y3, u3, e3, k3⟩ := combStep_ok r.cb3 x h3
  obtain ⟨y4, u4, e4, k4⟩ := apfStep_ok r.ap0 (combSum y0 y1 y2 y3) h4
  obtain ⟨y5, u5, e5, k5⟩ := apfStep_ok r.ap1 y4 h5
  obtain ⟨y6, u6, e6, k6⟩ := apfStep_ok r.ap2 y5 h6
  simp only [stepRev, bind, Except.bind, e0, e1, e2, e3, e4, e5, e6]
  exact ⟨_, _, rfl, ⟨k0, k1, k2, k3, k4, k5, k6⟩, rfl⟩

/-- The phaser's limit is from 1 to the capacity, whatever the modulation sample (R240). -/
theorem phaLimit_mem {c : Config} (depth l : F32) (h : 1 ≤ c.capPha) :
    1 ≤ phaLimit c depth l ∧ phaLimit c depth l ≤ c.capPha := sati_mem _ h

theorem phaWrap_lt {cap lim p : Nat} (hlim : lim ≤ cap) (h : 0 < cap) : phaWrap lim p < cap := by
  unfold phaWrap
  split <;> omega

theorem phaCascade_ok {c : Config} (gain : F32) {lim : Nat} (hlim : lim ≤ c.capPha) :
    ∀ (stages : List PhaStage) (y : F32),
      (∀ st ∈ stages, st.cur < c.capPha ∧ Memory.wf c.capPha st.buf = true) →
      ∃ y' stages', phaCascade c gain lim stages y = .ok (y', stages') ∧ stages'.length = stages.length
        ∧ ∀ st ∈ stages', st.cur < c.capPha ∧ Memory.wf c.capPha st.buf = true := by
  intro stages
  induction stages with
  | nil => intro y _; exact ⟨y, [], rfl, rfl, by simp⟩
  | cons st rest ih =>
    intro y h
    obtain ⟨hcur, hwf⟩ := h st (by simp)
    have hp : ∀ p, phaWrap lim p < c.capPha := fun p => phaWrap_lt hlim (by omega)
    obtain ⟨y', rest', hc, hl, hr⟩ := ih
      (allpassOut (wordOrZero st.buf (phaWrap lim st.cur)) gain y) fun s hs => h s (by simp [hs])
    simp only [phaCascade, phaStage, bind, Except.bind, memRead_of_lt _ (hp _), memWrite_of_lt _ _ (hp _),
      hc]
    refine ⟨_, _, rfl, by simp [hl], ?_⟩
    intro s hs
    rcases List.mem_cons.1 hs with rfl | hs
    · exact ⟨hp _, memory_wf_wordStore _ hwf (hp _)⟩
    · exact hr s hs

theorem stepPha_ok {c : Config} (ph : Pha) (x l : F32) (hcap : 1 ≤ c.capPha) (h : Pha.Ok c ph) :
    ∃ y ph', stepPha c ph x l = .ok (y, ph') ∧ Pha.Ok c ph' ∧ ph'.depth = ph.depth := by
  obtain ⟨y, stages, hc, hl, hs⟩ :=
    phaCascade_ok ph.gain (phaLimit_mem ph.depth l hcap).2 ph.stages x h.2
  simp only [stepPha, bind, Except.bind, hc]
  exact ⟨_, _, rfl, ⟨hl.trans h.1, hs⟩, rfl⟩

theorem rampVib_ok {c : Config} {v : Vib} (h : Vib.Ok c v) : Vib.Ok c (rampVib v) := by
  obtain ⟨h1, h2, h3⟩ := h
  unfold rampVib
  split
  · exact ⟨h1, by simp only; omega, h3⟩
  · split
    · exact ⟨h1, by simp only; omega, h3⟩
    · exact ⟨h1, h2, h3⟩

@[simp] theorem rampVib_depth (v : Vib) : (rampVib v).depth = v.depth := by
  unfold rampVib
  split
  · rfl
  · split <;> rfl

theorem stepVib_ok {c : Config} (v : Vib) (x l : F32) (h : Vib.Ok c v) :
    ∃ y v', stepVib c v x l = .ok (y, v') ∧ Vib.Ok c v' ∧ v'.depth = v.depth := by
  obtain ⟨h1, h2, h3, h4⟩ := h
  have hr : vibReadCursor c v l < c.capVib := mod_lt_of_lt h3
  unfold stepVib
  rw [memWrite_of_lt _ _ h3, except_bind_ok, memRead_of_lt _ hr, except_bind_ok]
  exact ⟨_, _, rfl, ⟨h1, h2, mod_lt_of_lt h3, memory_wf_wordStore _ h4 h3⟩, rfl⟩

theorem stepPsh_ok {c : Config} (u : Psh) (x m : F32) (h : Psh.Ok c u) :
    ∃ y u', stepPsh c u x m = .ok (y, u') ∧ Psh.Ok c u' ∧ u'.speed = u.speed ∧ u'.mix = u.mix
      ∧ u'.rpos = pshAdvance c u := by
  obtain ⟨h1, h2⟩ := h
  have hr1 : pshRead1 c u < c.capPsh := by unfold pshRead1; omega
  have hr2 : pshRead2 c u < c.capPsh := mod_lt_of_lt h1
  unfold stepPsh
  rw [memRead_of_lt _ hr1, except_bind_ok, memRead_of_lt _ hr2, except_bind_ok]
  dsimp only
  rw [memWrite_of_lt _ _ h1, except_bind_ok]
  exact ⟨_, _, rfl, ⟨mod_lt_of_lt h1, memory_wf_wordStore _ h2 h1⟩, rfl, rfl, rfl⟩

end Sys2Proof.Machine
end

