-- ==== Sys2Proof/Machine/Assembler.lean ====
section
/-! DEFINITION. The assembler language of R106 to R109: the line that names a command, the values and
symbols a line may hold, and the commands a pseudo-instruction stands for. No step reads any of it. -/

namespace Sys2Proof.Machine

/-! ### Register names (R28 to R39) -/

def sysRegisters : List String := ["OCTMUL", "GPM", "BLOCKLEN", "NBLK", "WTBITS"]

/-- The names of a class's registers, register 0 first; the `CUR<k>` of a phaser are named for the eight
stages that a build can have. -/
def registerNames (k : UnitClass) : List String :=
  match k with
  | .osc => ["WAVE", "PITCH", "LEVEL", "PAN", "MORPHWAVE", "MORPH", "PHASE"]
  | .flt => ["CUTOFF", "RES", "MODE", "B0", "B1", "B2", "A0", "A1", "W0", "W1"]
  | .env => ["ATTACK", "DECAY", "SUSTAIN", "RELEASE", "PHASE", "CONTROL", "ACTIVE"]
  | .dly => ["LENGTH", "INLEVEL", "OUTLEVEL", "FEEDBACK", "WCUR"]
  | .cmb => ["LIMIT", "GAIN", "CUR"]
  | .apf => ["LIMIT", "GAIN", "CUR"]
  | .rev => ["LEVEL", "TIME", "CGAIN0", "CGAIN1", "CGAIN2", "CGAIN3", "AGAIN0", "AGAIN1", "AGAIN2",
      "CLIM0", "CLIM1", "CLIM2", "CLIM3", "ALIM0", "ALIM1", "ALIM2", "CCUR0", "CCUR1", "CCUR2", "CCUR3",
      "ACUR0", "ACUR1", "ACUR2"]
  | .pha => ["DEPTH", "GAIN", "CUR0", "CUR1", "CUR2", "CUR3", "CUR4", "CUR5", "CUR6", "CUR7"]
  | .vib => ["DEPTH", "INTENSITY", "INTENCUR", "WCUR"]
  | .trm => ["DEPTH", "MODSRC", "RATE", "SHIFT", "LFOPHASE"]
  | .psh => ["SPEED", "FEEDBACK", "MIX", "WCUR", "RPOS"]

/-! ### Values (R107, R108) -/

/-- A value as a line writes it. -/
inductive AsmValue where
  /-- Written with a decimal point or an exponent: the rational `num / den` with its sign. -/
  | decimal (neg : Bool) (num den : Nat)
  /-- Written as an integer. -/
  | integer (v : Int)
  /-- Written `#0x…`. -/
  | raw (w : Word32)
deriving DecidableEq, Repr

/-- The immediate for a value, for a register of type `f32` or not: an integer where the type is `f32` is
an error of the assembler (R107). -/
def asmImmediate (isF32 : Bool) (v : AsmValue) : Option Word32 :=
  match v with
  | .decimal neg num den => some (fOfRatio neg num den)
  | .integer n => if isF32 then none else some (BitVec.ofInt 32 n)
  | .raw w => some w

/-- The kind-P registers of type `f32` of a class (R29 to R39). -/
def f32Registers (k : UnitClass) : List Nat :=
  match k with
  | .osc => [1, 2, 3, 5]
  | .flt => [0, 1]
  | .env => [0, 1, 2, 3]
  | .dly => [1, 2, 3]
  | .cmb => [1]
  | .apf => [1]
  | .rev => [0, 1, 2, 3, 4, 5, 6, 7, 8]
  | .pha => [0, 1]
  | .vib => [0]
  | .trm => [0]
  | .psh => [0, 1, 2]

/-- The symbols of `WAVE` and `MORPHWAVE` (R108). -/
def waveSymbols : List (String × Nat) :=
  [("SINE", 0), ("SAW", 1), ("SQUARE", 2), ("PULSE", 3), ("TRI", 4), ("NOISE", 5), ("SILENCE", 6)]

/-- The symbols of `FLT.MODE` (R108). -/
def modeSymbols : List (String × Nat) := [("LP", 0), ("NOTCH", 1)]

/-- The symbols of `TRM.MODSRC` (R108). -/
def modSrcSymbols : List (String × Nat) := [("INT", 0), ("EXT", 1)]

/-! ### Lines (R106) -/

/-- `<CLS>.SETP i, reg, value`. -/
def setpOf (k : UnitClass) (i reg : Nat) (imm : Word32) : Instr :=
  match k with
  | .osc => .oscSetp i reg imm
  | .flt => .fltSetp i reg imm
  | .env => .envSetp i reg imm
  | .dly => .dlySetp i reg imm
  | .cmb => .cmbSetp i reg imm
  | .apf => .apfSetp i reg imm
  | .rev => .revSetp i reg imm
  | .pha => .phaSetp i reg imm
  | .vib => .vibSetp i reg imm
  | .trm => .trmSetp i reg imm
  | .psh => .pshSetp i reg imm

/-- A register by name, or by number where the class has no such register. -/
def asmRegister (names : List String) (reg : Nat) : String := (names[reg]?).getD (toString reg)

/-- Block register `n`. -/
def asmBlock (n : Nat) : String := "b" ++ toString n

/-- The digits of a number below `16 ^ width` in hexadecimal. -/
def hexDigits : (width n : Nat) → List Char
  | 0, _ => []
  | width + 1, n => hexDigits width (n / 16) ++ [Nat.digitChar (n % 16) |>.toUpper]

/-- An immediate as the raw value `#0x…`, which every register takes (R107). -/
def asmRaw (w : Word32) : String := "#0x" ++ String.ofList (hexDigits 8 w.toNat)

/-- A mnemonic and its operands, separated by commas. -/
def asmLine (name : String) (operands : List String) : String :=
  if operands.isEmpty then name else name ++ " " ++ String.intercalate ", " operands

/-- The operands of a command, in the order of R106. -/
def asmOperands (i : Instr) : List String :=
  match i with
  | .sysNop => []
  | .sysSetp reg imm => [asmRegister sysRegisters reg, asmRaw imm]
  | .sysGetp reg => [asmRegister sysRegisters reg]
  | .bufClr bD => [asmBlock bD]
  | .bufCpy bD bS => [asmBlock bD, asmBlock bS]
  | .bufAcc bD bS => [asmBlock bD, asmBlock bS]
  | .oscProc i bD bS => [toString i, asmBlock bD, asmBlock bS]
  | .oscProci i bX => [toString i, asmBlock bX]
  | .oscReset i => [toString i]
  | .oscSetp i reg imm => [toString i, asmRegister (registerNames .osc) reg, asmRaw imm]
  | .oscGetp i reg => [toString i, asmRegister (registerNames .osc) reg]
  | .fltProc i bD bS => [toString i, asmBlock bD, asmBlock bS]
  | .fltProci i bX => [toString i, asmBlock bX]
  | .fltReset i => [toString i]
  | .fltSetp i reg imm => [toString i, asmRegister (registerNames .flt) reg, asmRaw imm]
  | .fltGetp i reg => [toString i, asmRegister (registerNames .flt) reg]
  | .envProc i bD bS => [toString i, asmBlock bD, asmBlock bS]
  | .envProci i bX => [toString i, asmBlock bX]
  | .envReset i => [toString i]
  | .envSetp i reg imm => [toString i, asmRegister (registerNames .env) reg, asmRaw imm]
  | .envGetp i reg => [toString i, asmRegister (registerNames .env) reg]
  | .envStart i => [toString i]
  | .envRel i => [toString i]
  | .envStep i => [toString i]
  | .dlyProc i bD bS => [toString i, asmBlock bD, asmBlock bS]
  | .dlyProci i bX => [toString i, asmBlock bX]
  | .dlyReset i => [toString i]
  | .dlySetp i reg imm => [toString i, asmRegister (registerNames .dly) reg, asmRaw imm]
  | .dlyGetp i reg => [toString i, asmRegister (registerNames .dly) reg]
  | .cmbProc i bD bS => [toString i, asmBlock bD, asmBlock bS]
  | .cmbProci i bX => [toString i, asmBlock bX]
  | .cmbReset i => [toString i]
  | .cmbSetp i reg imm => [toString i, asmRegister (registerNames .cmb) reg, asmRaw imm]
  | .cmbGetp i reg => [toString i, asmRegister (registerNames .cmb) reg]
  | .apfProc i bD bS => [toString i, asmBlock bD, asmBlock bS]
  | .apfProci i bX => [toString i, asmBlock bX]
  | .apfReset i => [toString i]
  | .apfSetp i reg imm => [toString i, asmRegister (registerNames .apf) reg, asmRaw imm]
  | .apfGetp i reg => [toString i, asmRegister (registerNames .apf) reg]
  | .revProc i bD bS => [toString i, asmBlock bD, asmBlock bS]
  | .revProci i bX => [toString i, asmBlock bX]
  | .revReset i => [toString i]
  | .revSetp i reg imm => [toString i, asmRegister (registerNames .rev) reg, asmRaw imm]
  | .revGetp i reg => [toString i, asmRegister (registerNames .rev) reg]
  | .phaProc i bD bS bM => [toString i, asmBlock bD, asmBlock bS, asmBlock bM]
  | .phaProci i bX bM => [toString i, asmBlock bX, asmBlock bM]
  | .phaReset i => [toString i]
  | .phaSetp i reg imm => [toString i, asmRegister (registerNames .pha) reg, asmRaw imm]
  | .phaGetp i reg => [toString i, asmRegister (registerNames .pha) reg]
  | .vibProc i bD bS bM => [toString i, asmBlock bD, asmBlock bS, asmBlock bM]
  | .vibProci i bX bM => [toString i, asmBlock bX, asmBlock bM]
  | .vibReset i => [toString i]
  | .vibSetp i reg imm => [toString i, asmRegister (registerNames .vib) reg, asmRaw imm]
  | .vibGetp i reg => [toString i, asmRegister (registerNames .vib) reg]
  | .trmProc i bD bS bM => [toString i, asmBlock bD, asmBlock bS, asmBlock bM]
  | .trmProci i bX bM => [toString i, asmBlock bX, asmBlock bM]
  | .trmReset i => [toString i]
  | .trmSetp i reg imm => [toString i, asmRegister (registerNames .trm) reg, asmRaw imm]
  | .trmGetp i reg => [toString i, asmRegister (registerNames .trm) reg]
  | .pshProc i bD bS => [toString i, asmBlock bD, asmBlock bS]
  | .pshProci i bX => [toString i, asmBlock bX]
  | .pshReset i => [toString i]
  | .pshSetp i reg imm => [toString i, asmRegister (registerNames .psh) reg, asmRaw imm]
  | .pshGetp i reg => [toString i, asmRegister (registerNames .psh) reg]

/-- The line that names a command (R106). -/
def asmText (i : Instr) : String := asmLine (mnemonic i) (asmOperands i)

/-! ### Pseudo-instructions (R109) -/

/-- A pseudo-instruction. -/
inductive Pseudo where
  | noteOn (v : Nat)
  | noteOff (v : Nat)
  /-- `<CLS>.<REG> i, value`. -/
  | setRegister (k : UnitClass) (i reg : Nat) (value : AsmValue)
  /-- `<CLS>.COPYPROC i, bD, bS`. -/
  | copyProc (k : UnitClass) (i bD bS : Nat)
deriving DecidableEq, Repr

/-- The commands a pseudo-instruction stands for; none where the assembler reports an error. `COPYPROC`
has no operand for the modulation block that `PROCI` of `PHA`, `VIB` and `TRM` needs, so it is none
there (notes/assumptions/13.md). -/
def expandPseudo (p : Pseudo) : Option (List Instr) :=
  match p with
  | .noteOn v => some [.oscReset v, .fltReset v, .envStart v]
  | .noteOff v => some [.envRel v]
  | .setRegister k i reg value =>
    (asmImmediate ((f32Registers k).contains reg) value).map fun imm => [setpOf k i reg imm]
  | .copyProc k i bD bS =>
    match k with
    | .osc => some [.bufCpy bD bS, .oscProci i bD]
    | .flt => some [.bufCpy bD bS, .fltProci i bD]
    | .env => some [.bufCpy bD bS, .envProci i bD]
    | .dly => some [.bufCpy bD bS, .dlyProci i bD]
    | .cmb => some [.bufCpy bD bS, .cmbProci i bD]
    | .apf => some [.bufCpy bD bS, .apfProci i bD]
    | .rev => some [.bufCpy bD bS, .revProci i bD]
    | .pha => none
    | .vib => none
    | .trm => none
    | .psh => some [.bufCpy bD bS, .pshProci i bD]

end Sys2Proof.Machine
end

