-- ==== Sys2Proof/Tests/Slice0.lean ====
section
/-! SUPPORT. Our own tests, each a named theorem: ill-formed commands refused, every constructor decoded
from a word written out from `30_encoding.md`, one or two vectors of `95_test_vectors.md` for each
command, and for each obligation with hypotheses a state and operands that meet them. -/

namespace Sys2Proof.Tests

open Sys2Proof Sys2Proof.Machine

set_option Elab.async false

/-! ### Well-formedness: an operand of 256 has no encoding (R91, R99) -/

theorem test_illFormed_sys :
    WellFormed (.sysSetp 256 0#32) = false ∧ WellFormed (.sysGetp 256) = false := by decide

theorem test_illFormed_buf :
    WellFormed (.bufClr 256) = false ∧ WellFormed (.bufCpy 256 0) = false
      ∧ WellFormed (.bufCpy 0 256) = false ∧ WellFormed (.bufAcc 256 0) = false
      ∧ WellFormed (.bufAcc 0 256) = false := by decide

theorem test_illFormed_osc :
    WellFormed (.oscProc 256 0 0) = false ∧ WellFormed (.oscProc 0 256 0) = false
      ∧ WellFormed (.oscProc 0 0 256) = false ∧ WellFormed (.oscProci 256 0) = false
      ∧ WellFormed (.oscProci 0 256) = false ∧ WellFormed (.oscReset 256) = false
      ∧ WellFormed (.oscSetp 256 0 0#32) = false ∧ WellFormed (.oscSetp 0 256 0#32) = false
      ∧ WellFormed (.oscGetp 256 0) = false ∧ WellFormed (.oscGetp 0 256) = false := by decide

theorem test_illFormed_flt :
    WellFormed (.fltProc 256 0 0) = false ∧ WellFormed (.fltProc 0 256 0) = false
      ∧ WellFormed (.fltProc 0 0 256) = false ∧ WellFormed (.fltProci 256 0) = false
      ∧ WellFormed (.fltProci 0 256) = false ∧ WellFormed (.fltReset 256) = false
      ∧ WellFormed (.fltSetp 256 0 0#32) = false ∧ WellFormed (.fltSetp 0 256 0#32) = false
      ∧ WellFormed (.fltGetp 256 0) = false ∧ WellFormed (.fltGetp 0 256) = false := by decide

theorem test_illFormed_env :
    WellFormed (.envProc 256 0 0) = false ∧ WellFormed (.envProc 0 256 0) = false
      ∧ WellFormed (.envProc 0 0 256) = false ∧ WellFormed (.envProci 256 0) = false
      ∧ WellFormed (.envProci 0 256) = false ∧ WellFormed (.envReset 256) = false
      ∧ WellFormed (.envSetp 256 0 0#32) = false ∧ WellFormed (.envSetp 0 256 0#32) = false
      ∧ WellFormed (.envGetp 256 0) = false ∧ WellFormed (.envGetp 0 256) = false
      ∧ WellFormed (.envStart 256) = false ∧ WellFormed (.envRel 256) = false
      ∧ WellFormed (.envStep 256) = false := by decide

theorem test_illFormed_dly :
    WellFormed (.dlyProc 256 0 0) = false ∧ WellFormed (.dlyProc 0 256 0) = false
      ∧ WellFormed (.dlyProc 0 0 256) = false ∧ WellFormed (.dlyProci 256 0) = false
      ∧ WellFormed (.dlyProci 0 256) = false ∧ WellFormed (.dlyReset 256) = false
      ∧ WellFormed (.dlySetp 256 0 0#32) = false ∧ WellFormed (.dlySetp 0 256 0#32) = false
      ∧ WellFormed (.dlyGetp 256 0) = false ∧ WellFormed (.dlyGetp 0 256) = false := by decide

theorem test_illFormed_cmb :
    WellFormed (.cmbProc 256 0 0) = false ∧ WellFormed (.cmbProc 0 256 0) = false
      ∧ WellFormed (.cmbProc 0 0 256) = false ∧ WellFormed (.cmbProci 256 0) = false
      ∧ WellFormed (.cmbProci 0 256) = false ∧ WellFormed (.cmbReset 256) = false
      ∧ WellFormed (.cmbSetp 256 0 0#32) = false ∧ WellFormed (.cmbSetp 0 256 0#32) = false
      ∧ WellFormed (.cmbGetp 256 0) = false ∧ WellFormed (.cmbGetp 0 256) = false := by decide

theorem test_illFormed_apf :
    WellFormed (.apfProc 256 0 0) = false ∧ WellFormed (.apfProc 0 256 0) = false
      ∧ WellFormed (.apfProc 0 0 256) = false ∧ WellFormed (.apfProci 256 0) = false
      ∧ WellFormed (.apfProci 0 256) = false ∧ WellFormed (.apfReset 256) = false
      ∧ WellFormed (.apfSetp 256 0 0#32) = false ∧ WellFormed (.apfSetp 0 256 0#32) = false
      ∧ WellFormed (.apfGetp 256 0) = false ∧ WellFormed (.apfGetp 0 256) = false := by decide

theorem test_illFormed_rev :
    WellFormed (.revProc 256 0 0) = false ∧ WellFormed (.revProc 0 256 0) = false
      ∧ WellFormed (.revProc 0 0 256) = false ∧ WellFormed (.revProci 256 0) = false
      ∧ WellFormed (.revProci 0 256) = false ∧ WellFormed (.revReset 256) = false
      ∧ WellFormed (.revSetp 256 0 0#32) = false ∧ WellFormed (.revSetp 0 256 0#32) = false
      ∧ WellFormed (.revGetp 256 0) = false ∧ WellFormed (.revGetp 0 256) = false := by decide

theorem test_illFormed_pha :
    WellFormed (.phaProc 256 0 0 0) = false ∧ WellFormed (.phaProc 0 256 0 0) = false
      ∧ WellFormed (.phaProc 0 0 256 0) = false ∧ WellFormed (.phaProc 0 0 0 256) = false
      ∧ WellFormed (.phaProci 256 0 0) = false ∧ WellFormed (.phaProci 0 256 0) = false
      ∧ WellFormed (.phaProci 0 0 256) = false ∧ WellFormed (.phaReset 256) = false
      ∧ WellFormed (.phaSetp 256 0 0#32) = false ∧ WellFormed (.phaSetp 0 256 0#32) = false
      ∧ WellFormed (.phaGetp 256 0) = false ∧ WellFormed (.phaGetp 0 256) = false := by decide

theorem test_illFormed_vib :
    WellFormed (.vibProc 256 0 0 0) = false ∧ WellFormed (.vibProc 0 256 0 0) = false
      ∧ WellFormed (.vibProc 0 0 256 0) = false ∧ WellFormed (.vibProc 0 0 0 256) = false
      ∧ WellFormed (.vibProci 256 0 0) = false ∧ WellFormed (.vibProci 0 256 0) = false
      ∧ WellFormed (.vibProci 0 0 256) = false ∧ WellFormed (.vibReset 256) = false
      ∧ WellFormed (.vibSetp 256 0 0#32) = false ∧ WellFormed (.vibSetp 0 256 0#32) = false
      ∧ WellFormed (.vibGetp 256 0) = false ∧ WellFormed (.vibGetp 0 256) = false := by decide

theorem test_illFormed_trm :
    WellFormed (.trmProc 256 0 0 0) = false ∧ WellFormed (.trmProc 0 256 0 0) = false
      ∧ WellFormed (.trmProc 0 0 256 0) = false ∧ WellFormed (.trmProc 0 0 0 256) = false
      ∧ WellFormed (.trmProci 256 0 0) = false ∧ WellFormed (.trmProci 0 256 0) = false
      ∧ WellFormed (.trmProci 0 0 256) = false ∧ WellFormed (.trmReset 256) = false
      ∧ WellFormed (.trmSetp 256 0 0#32) = false ∧ WellFormed (.trmSetp 0 256 0#32) = false
      ∧ WellFormed (.trmGetp 256 0) = false ∧ WellFormed (.trmGetp 0 256) = false := by decide

theorem test_illFormed_psh :
    WellFormed (.pshProc 256 0 0) = false ∧ WellFormed (.pshProc 0 256 0) = false
      ∧ WellFormed (.pshProc 0 0 256) = false ∧ WellFormed (.pshProci 256 0) = false
      ∧ WellFormed (.pshProci 0 256) = false ∧ WellFormed (.pshReset 256) = false
      ∧ WellFormed (.pshSetp 256 0 0#32) = false ∧ WellFormed (.pshSetp 0 256 0#32) = false
      ∧ WellFormed (.pshGetp 256 0) = false ∧ WellFormed (.pshGetp 0 256) = false := by decide

/-! ### Decoding: every constructor from a word written out by R91 to R98

Opcode byte, instance, `ra`, `rb`, immediate; two hexadecimal digits each, the immediate eight. -/

theorem test_decode_sys :
    decode 0x0000000000000000#64 = some (.sysNop)
      ∧ decode 0x030002003F800002#64 = some (.sysSetp 2 0x3F800002#32)
      ∧ decode 0x0400000000000000#64 = some (.sysGetp 0) := by decide

theorem test_decode_buf :
    decode 0x1000020000000000#64 = some (.bufClr 2)
      ∧ decode 0x1100020100000000#64 = some (.bufCpy 2 1)
      ∧ decode 0x1200020100000000#64 = some (.bufAcc 2 1) := by decide

theorem test_decode_osc :
    decode 0x2001020100000000#64 = some (.oscProc 1 2 1)
      ∧ decode 0x2101020000000000#64 = some (.oscProci 1 2)
      ∧ decode 0x2201000000000000#64 = some (.oscReset 1)
      ∧ decode 0x230101003F80000A#64 = some (.oscSetp 1 1 0x3F80000A#32)
      ∧ decode 0x2401020000000000#64 = some (.oscGetp 1 2) := by decide

theorem test_decode_flt :
    decode 0x3001020100000000#64 = some (.fltProc 1 2 1)
      ∧ decode 0x3101020000000000#64 = some (.fltProci 1 2)
      ∧ decode 0x3201000000000000#64 = some (.fltReset 1)
      ∧ decode 0x330100003F80000F#64 = some (.fltSetp 1 0 0x3F80000F#32)
      ∧ decode 0x3401010000000000#64 = some (.fltGetp 1 1) := by decide

theorem test_decode_env :
    decode 0x4001020100000000#64 = some (.envProc 1 2 1)
      ∧ decode 0x4101020000000000#64 = some (.envProci 1 2)
      ∧ decode 0x4201000000000000#64 = some (.envReset 1)
      ∧ decode 0x430102003F800014#64 = some (.envSetp 1 2 0x3F800014#32)
      ∧ decode 0x4401000000000000#64 = some (.envGetp 1 0)
      ∧ decode 0x4501000000000000#64 = some (.envStart 1)
      ∧ decode 0x4601000000000000#64 = some (.envRel 1)
      ∧ decode 0x4701000000000000#64 = some (.envStep 1) := by decide

theorem test_decode_dly :
    decode 0x5001020100000000#64 = some (.dlyProc 1 2 1)
      ∧ decode 0x5101020000000000#64 = some (.dlyProci 1 2)
      ∧ decode 0x5201000000000000#64 = some (.dlyReset 1)
      ∧ decode 0x530101003F80001C#64 = some (.dlySetp 1 1 0x3F80001C#32)
      ∧ decode 0x5401020000000000#64 = some (.dlyGetp 1 2) := by decide

theorem test_decode_cmb :
    decode 0x6001020100000000#64 = some (.cmbProc 1 2 1)
      ∧ decode 0x6101020000000000#64 = some (.cmbProci 1 2)
      ∧ decode 0x6201000000000000#64 = some (.cmbReset 1)
      ∧ decode 0x630100003F800021#64 = some (.cmbSetp 1 0 0x3F800021#32)
      ∧ decode 0x6401010000000000#64 = some (.cmbGetp 1 1) := by decide

theorem test_decode_apf :
    decode 0x7001020100000000#64 = some (.apfProc 1 2 1)
      ∧ decode 0x7101020000000000#64 = some (.apfProci 1 2)
      ∧ decode 0x7201000000000000#64 = some (.apfReset 1)
      ∧ decode 0x730102003F800026#64 = some (.apfSetp 1 2 0x3F800026#32)
      ∧ decode 0x7401000000000000#64 = some (.apfGetp 1 0) := by decide

theorem test_decode_rev :
    decode 0x8001020100000000#64 = some (.revProc 1 2 1)
      ∧ decode 0x8101020000000000#64 = some (.revProci 1 2)
      ∧ decode 0x8201000000000000#64 = some (.revReset 1)
      ∧ decode 0x830101003F80002B#64 = some (.revSetp 1 1 0x3F80002B#32)
      ∧ decode 0x8401020000000000#64 = some (.revGetp 1 2) := by decide

theorem test_decode_pha :
    decode 0x9001020100000003#64 = some (.phaProc 1 2 1 3)
      ∧ decode 0x9101020000000003#64 = some (.phaProci 1 2 3)
      ∧ decode 0x9201000000000000#64 = some (.phaReset 1)
      ∧ decode 0x930100003F800030#64 = some (.phaSetp 1 0 0x3F800030#32)
      ∧ decode 0x9401010000000000#64 = some (.phaGetp 1 1) := by decide

theorem test_decode_vib :
    decode 0xA001020100000003#64 = some (.vibProc 1 2 1 3)
      ∧ decode 0xA101020000000003#64 = some (.vibProci 1 2 3)
      ∧ decode 0xA201000000000000#64 = some (.vibReset 1)
      ∧ decode 0xA30102003F800035#64 = some (.vibSetp 1 2 0x3F800035#32)
      ∧ decode 0xA401000000000000#64 = some (.vibGetp 1 0) := by decide

theorem test_decode_trm :
    decode 0xB001020100000003#64 = some (.trmProc 1 2 1 3)
      ∧ decode 0xB101020000000003#64 = some (.trmProci 1 2 3)
      ∧ decode 0xB201000000000000#64 = some (.trmReset 1)
      ∧ decode 0xB30101003F80003A#64 = some (.trmSetp 1 1 0x3F80003A#32)
      ∧ decode 0xB401020000000000#64 = some (.trmGetp 1 2) := by decide

theorem test_decode_psh :
    decode 0xC001020100000000#64 = some (.pshProc 1 2 1)
      ∧ decode 0xC101020000000000#64 = some (.pshProci 1 2)
      ∧ decode 0xC201000000000000#64 = some (.pshReset 1)
      ∧ decode 0xC30100003F80003F#64 = some (.pshSetp 1 0 0x3F80003F#32)
      ∧ decode 0xC401010000000000#64 = some (.pshGetp 1 1) := by decide

/-- `95_test_vectors.md` section 3.1: legal fields, but the word matches no row. -/
theorem test_decode_refuses :
    [0xFFFFFFFFFFFFFFFF#64, 0xD000000000000000#64, 0x0100000000000000#64, 0x0001000000000000#64,
      0x1300000000000000#64, 0x2500000000000000#64, 0x4800000000000000#64, 0x3000010000000001#64,
      0x3100010100000000#64, 0x3200010000000000#64, 0x3300000100000000#64, 0x3400000000000001#64,
      0x9000010000000102#64, 0x1001010000000000#64, 0x1000010100000000#64,
      0x030100003F800000#64].all (fun cw => decode cw == none) = true := by decide

/-- The host's own form of the decoder, at a full and at a cut width. -/
theorem test_decodeTableWord :
    decodeTableWord 64 0x330000003F000000 = some (.fltSetp 0 0 0x3F000000#32)
      ∧ decodeTableWord 64 0xFFFFFFFFFFFFFFFF = none ∧ decodeTableWord 8 0x5500 = some .sysNop := by decide

/-! ### The assembler (R105 to R109) -/

theorem test_asmText :
    asmText .sysNop = "SYS.NOP" ∧ asmText (.fltSetp 0 0 0x3F000000#32) = "FLT.SETP 0, CUTOFF, #0x3F000000"
      ∧ asmText (.dlyProc 0 1 0) = "DLY.PROC 0, b1, b0" ∧ asmText (.phaProc 1 2 0 3) = "PHA.PROC 1, b2, b0, b3"
      ∧ asmText (.oscGetp 0 6) = "OSC.GETP 0, PHASE" := by decide +kernel

/-- -1 is a value for the integer `LENGTH` and an error for the `f32` register `CUTOFF`. -/
theorem test_expandPseudo :
    (expandPseudo (.noteOn 1)).map (List.map encode)
        = some [0x2201000000000000#64, 0x3201000000000000#64, 0x4501000000000000#64]
      ∧ (expandPseudo (.setRegister .dly 1 0 (.integer (-1)))).map (List.map encode)
        = some [0x53010000FFFFFFFF#64]
      ∧ (expandPseudo (.setRegister .flt 0 0 (.decimal false 5 10))).map (List.map encode)
        = some [0x330000003F000000#64]
      ∧ expandPseudo (.setRegister .flt 0 0 (.integer (-1))) = none := by decide +kernel

/-! ### A small core to run one command on -/

/-- The configuration `T` with blocks of `n` samples, after hard reset. -/
def core (n : Nat) : State := State.powerOn { Config.test with blockLen := n } 0

/-- The core with the samples `xs` in block register `b`. -/
def load (s : State) (b : Nat) (xs : List F32) : State :=
  xs.zipIdx.foldl (fun s' p => writeSample s' b p.2 p.1) s

/-- The samples of block register `b` after a command, if it answered a next state. -/
def samples (out : Out) (b : Nat) : List F32 :=
  match out with
  | .next t => (List.range t.cfg.blockLen).map (readSample t b)
  | .fault _ => []
  | .refused _ => []

/-- What `f` shows of the next state, if there is one. -/
def view {A : Type} (f : State → A) (out : Out) : Option A :=
  match out with
  | .next t => some (f t)
  | .fault _ => none
  | .refused _ => none

/-- A core the host has asked for these actions. -/
def asked (s : State) (acts : List HostAction) : State := { s with host := acts }

/-- A core in the fault state. -/
def faulted : State := raise .illegalAlias { core 2 with cmdPort := 0x5000010100000000#64 }

/-! ### Arithmetic and tables (sections 1.1 to 1.3) -/

theorem test_literals :
    fOfRatio false 25 10000 = omegaMin ∧ fOfRatio false 99 100 = notchRadius
      ∧ fOfRatio false 805 1000 = 0x3F4E147B#32 ∧ fOfRatio false 827 1000 = 0x3F53B646#32
      ∧ fOfRatio false 783 1000 = 0x3F4872B0#32 ∧ fOfRatio false 764 1000 = 0x3F439581#32
      ∧ fOfRatio false 7 10 = 0x3F333333#32 ∧ u2f 268435456 = 0x4D800000#32 := by decide +kernel

/-- A build that gives the OPEN parameters of R9 only. -/
def openOnly : Config where
  blockLen := 64
  nBlk := 16
  nOsc := 8
  nFlt := 8
  nEnv := 8
  nDly := 1
  nCmb := 0
  nApf := 0
  nRev := 1
  nPha := 1
  nVib := 1
  nTrm := 1
  nPsh := 1
  noise := []
  capDly := 48000
  capCmb := 1
  capApf := 1
  capPha := 64
  capVib := 64
  capPsh := 4096

/-- The column "default" of R9, and that it keeps the constraints. -/
theorem test_defaults :
    configLegal openOnly = true ∧ openOnly.wtLen = 1024
      ∧ [openOnly.capRevCb0, openOnly.capRevCb1, openOnly.capRevCb2, openOnly.capRevCb3]
        = [3460, 2988, 3882, 4312]
      ∧ [openOnly.capRevAp0, openOnly.capRevAp1, openOnly.capRevAp2] = [480, 161, 46]
      ∧ openOnly.nPhaStages = 1 ∧ openOnly.qMin = fOfRatio false 1 2 ∧ openOnly.qMax = u2f 16
      ∧ openOnly.speedMax = u2f 4 := by decide +kernel

/-- 2^-149 halved is +0.0 and thrice that is 2^-148: ties to even below the normal range; the largest
finite value doubled is infinity. -/
theorem test_rounding :
    fMul 0x00000001#32 0x3F000000#32 = 0x00000000#32 ∧ fMul 0x00000003#32 0x3F000000#32 = 0x00000002#32
      ∧ fAdd 0x7F7FFFFF#32 0x7F7FFFFF#32 = 0x7F800000#32
      ∧ fSub 0x3F800000#32 0x3F800000#32 = 0x00000000#32
      ∧ fAdd 0x80000000#32 0x80000000#32 = 0x80000000#32
      ∧ fDiv 0x3F800000#32 0x80000000#32 = 0xFF800000#32
      ∧ fDiv 0x3F800000#32 0x40400000#32 = 0x3EAAAAAB#32 := by decide +kernel

/-- An invalid operation gives a NaN, whichever pattern it has. -/
theorem test_invalid_is_nan :
    fIsNaN (fSub 0x7F800000#32 0x7F800000#32) = true ∧ fIsNaN (fMul 0x00000000#32 0x7F800000#32) = true
      ∧ fIsNaN (fDiv 0x00000000#32 0x80000000#32) = true :=
  ⟨fIsNaN_fNaNResult _ _ _, fIsNaN_fNaNResult _ _ _, fIsNaN_fNaNResult _ _ _⟩

theorem test_conversions :
    f2u32 0xBFC00000#32 = 0 ∧ f2i32 0xBFC00000#32 = -1 ∧ f2u32 0x4EFFFFFF#32 = 2147483520
      ∧ f2i32 0x4F000000#32 = 2147483647 ∧ f2u32 0x4F800000#32 = 4294967295
      ∧ f2i32 0xFF800000#32 = -2147483648 ∧ f2u32 0x7FC00000#32 = 0 ∧ u2f 16777217 = 0x4B800000#32
      ∧ u2f 16777219 = 0x4B800002#32 ∧ clampf 0x7FC00000#32 0x3F000000#32 fOne = 0x3F000000#32
      ∧ clampf 0x80000000#32 fZero fOne = 0x80000000#32 ∧ sati (-1) 0 8 = 0 ∧ sati 100 0 8 = 8 := by
  decide +kernel

theorem test_wavetables :
    [0, 1, 64, 255, 257, 512, 513, 768, 1023].map (wavetable Config.test .sine)
        = [0x00000000#32, 0x3BC90F88#32, 0x3EC3EF15#32, 0x3F7FFEC4#32, 0x3F7FFEC4#32, 0x00000000#32,
          0xBBC90F88#32, 0xBF800000#32, 0xBBC90F88#32]
      ∧ [0, 512, 768].map (wavetable Config.test .sawtooth) = [0xBF800000#32, 0x00000000#32, 0x3F000000#32]
      ∧ [512, 513].map (wavetable Config.test .square) = [0xBF800000#32, 0x3F800000#32]
      ∧ [256, 257].map (wavetable Config.test .pulse) = [0xBF800000#32, 0x3F800000#32]
      ∧ [64, 512, 640].map (wavetable Config.test .triangle)
        = [0x3F400000#32, 0xBF800000#32, 0xBF000000#32] := by decide +kernel

/-! ### Faults (section 3.1) and the step -/

/-- Each word with the cause it raises after reset; `FAULTCW` is the word and nothing else changes. -/
theorem test_faults :
    [(0xFFFFFFFFFFFFFFFF#64, 1), (0x5002010000000000#64, 2), (0x5002090000000000#64, 2),
      (0x5000090000000000#64, 3), (0x5000010400000000#64, 3), (0x9000010000000004#64, 3),
      (0x1100000400000000#64, 3), (0x2000010400000000#64, 3), (0x5000010100000000#64, 4),
      (0x2000010100000000#64, 4), (0x5000090900000000#64, 3), (0x5005090900000000#64, 2),
      (0x9000010000000001#64, 4), (0xB100020000000002#64, 4), (0xA100000000000000#64, 4),
      (0x2300060000000000#64, 5), (0x2400070000000000#64, 5), (0x330003003F800000#64, 5),
      (0x4300040000000000#64, 5), (0x8300090000000001#64, 5), (0x8400170000000000#64, 5),
      (0x9400030000000000#64, 5), (0x0300020000000010#64, 5), (0x0400050000000000#64, 5)].all
      (fun p => view id (step (asked (core 2) [.issue p.1]))
        == some { core 2 with
          cmdPort := p.1, status := BitVec.ofNat 32 (16 * p.2 + 1), faultcw := p.1 }) = true := by
  decide +kernel

/-- P4: after the fault a command is ignored. -/
theorem test_fault_ignores :
    step (asked faulted [.issue 0x1000020000000000#64]) = .next (asked faulted []) := rfl

theorem test_hardReset_leaves_fault :
    (view (fun t => (t.status, t.faultcw, t.resets)) (step (asked faulted [.hardReset])))
      = some (0#32, 0#64, 1) := by decide +kernel

theorem test_withFetchWord :
    view State.resp (step (State.reset.withFetchWord 64 0x0400020000000000)) = some 8#32 := by decide +kernel

/-! ### SYS and BUF (section 3.2) -/

theorem test_sysNop : exec .sysNop (core 2) = .next (core 2) := rfl

theorem test_sysSetp : view State.gpm (exec (.sysSetp 1 0x3FC00000#32) (core 2)) = some 0x3FC00000#32 := by
  decide +kernel

theorem test_sysGetp : view State.resp (exec (.sysGetp 4) (core 2)) = some 10#32 := by decide +kernel

theorem test_bufClr : samples (exec (.bufClr 1) (core 2)) 1 = [0#32, 0#32] := by decide +kernel

/-- A NaN keeps its payload. -/
theorem test_bufCpy :
    samples (exec (.bufCpy 1 3) (load (core 2) 3 [0x7FC01234#32, 0x3F800000#32])) 1
      = [0x7FC01234#32, 0x3F800000#32] := by decide +kernel

/-- A block added to itself is doubled. -/
theorem test_bufAcc :
    samples (exec (.bufAcc 2 2) (load (core 2) 2 [0x3F800000#32, 0x40000000#32])) 2
      = [0x40000000#32, 0x40800000#32] := by decide +kernel

/-! ### OSC (section 3.3) -/

/-- Sawtooth, pitch 2^28, level 0.5. -/
def sawCore : State :=
  putOsc (load (core 4) 1 [0#32, 0#32, 0#32, 0#32]) 0
    { Osc.hardReset with wave := .sawtooth, pitch := 0x4D800000#32, level := 0x3F000000#32 }

theorem test_oscProc :
    samples (exec (.oscProc 0 1 0) sawCore) 1
      = [0xBEE00000#32, 0xBEC00000#32, 0xBEA00000#32, 0xBE800000#32] := by decide +kernel

/-- Row 1 of the morph vector, and the phase it leaves after two samples. -/
theorem test_oscProci :
    let s := putOsc (load (core 2) 1 [0#32, 0#32]) 0 { Osc.hardReset with
      wave := .sine, pitch := 0x4E000000#32, morphWave := .square, morph := 0x4D800000#32 }
    samples (exec (.oscProci 0 1) s) 1 = [0x3EC3EF15#32, 0x3F3504F3#32]
      ∧ view (fun t => t.osc.map Osc.phase) (exec (.oscProci 0 1) s) = some [0x20000000#32, 0#32] := by
  decide +kernel

theorem test_oscReset :
    view State.osc (exec (.oscReset 0) (putOsc sawCore 0 { Osc.hardReset with phase := 5#32 }))
      = some [Osc.hardReset, Osc.hardReset] := by decide +kernel

/-- 9 stores 6 and -1 stores 0. -/
theorem test_oscSetp :
    view (fun t => t.osc.map Osc.wave) (exec (.oscSetp 0 0 9#32) sawCore) = some [.silence, .silence]
      ∧ view (fun t => t.osc.map Osc.wave) (exec (.oscSetp 0 0 0xFFFFFFFF#32) sawCore)
        = some [.sine, .silence] := by decide +kernel

theorem test_oscGetp : view State.resp (exec (.oscGetp 0 3) (core 2)) = some 0x3F000000#32 := by
  decide +kernel

/-! ### FLT (section 3.4) -/

/-- The filter of row 2: cutoff 0.5, resonance 0.5. -/
def lowPassCore : State :=
  putFlt (core 3) 0 (redesign Config.test { Flt.hardReset Config.test with cutoff := 0x3F000000#32 })

/-- The impulse response of row 2. -/
theorem test_fltProc :
    samples (exec (.fltProc 0 1 0) (load lowPassCore 0 [fOne, fZero, fZero])) 1
      = [0x3CE17EF9#32, 0x3DBC1574#32, 0x3E0D46B0#32] := by decide +kernel

/-- E3: at full cutoff the filter passes a sine unchanged. -/
theorem test_fltProci :
    samples (exec (.fltProci 1 0) (load (core 3) 0 [0x3F3504F3#32, fOne, 0xBF3504F3#32])) 0
      = [0x3F3504F3#32, fOne, 0xBF3504F3#32] := by decide +kernel

theorem test_fltReset :
    view State.flt (exec (.fltReset 0)
        (putFlt (core 2) 0 { Flt.hardReset Config.test with w0 := fOne, w1 := fTwo }))
      = some (core 2).flt := by decide +kernel

/-- The coefficients of the rows with cutoff 0.0 and, after the mode is set, of the notch. -/
theorem test_fltSetp :
    view (fun t => t.flt.map fun f => [f.b0, f.b1, f.b2, f.a0, f.a1]) (exec (.fltSetp 0 0 fZero) lowPassCore)
        = some [[0x371D0954#32, 0x379D0954#32, 0x371D0954#32, 0xBFFE6F1A#32, 0x3F7CE0A9#32],
          [fOne, fTwo, fOne, fTwo, fOne]]
      ∧ view (fun t => t.flt.map fun f => [f.b0, f.b1, f.b2, f.a0, f.a1]) (exec (.fltSetp 0 2 7#32) lowPassCore)
        = some [[fOne, 0xBFEC835E#32, fOne, 0xBFEA25E5#32, 0x3F7AE7D6#32],
          [fOne, fTwo, fOne, fTwo, fOne]] := by decide +kernel

theorem test_fltGetp : view State.resp (exec (.fltGetp 0 4) (core 2)) = some 0x40000000#32 := by
  decide +kernel

/-! ### ENV (section 3.7) -/

/-- The envelope of vector 1, with phase and control as given. -/
def envCore (n : Nat) (phase : EnvPhase) (control : F32) : State :=
  putEnv (core n) 0 ⟨0x3E800000#32, 0x3E800000#32, 0x3F000000#32, 0x3E4CCCCD#32, phase, control, true⟩

/-- Vector 7, the first six samples. -/
theorem test_envProc :
    samples (exec (.envProc 0 1 0) (load (envCore 6 .attack fZero) 0 (List.replicate 6 fOne))) 1
      = [0x3E800000#32, 0x3F000000#32, 0x3F400000#32, fOne, 0x3F400000#32, 0x3F000000#32] := by
  decide +kernel

/-- Vector 6: a finished envelope gives zeros. -/
theorem test_envProci :
    samples (exec (.envProci 1 0) (load (core 2) 0 [fOne, fTwo])) 0 = [fZero, fZero] := by decide +kernel

theorem test_envReset :
    view (fun t => t.env.map fun e => (e.phase, e.control, e.active, e.attack))
        (exec (.envReset 0) (envCore 2 .decay fOne))
      = some [(.release, fZero, false, 0x3E800000#32), (.release, fZero, false, fOne)] := by decide +kernel

/-- -0.5 stores 0.0 and 3.0 stores 1.0. -/
theorem test_envSetp :
    view (fun t => t.env.map Env.attack) (exec (.envSetp 0 0 0xBF000000#32) (core 2)) = some [fZero, fOne]
      ∧ view (fun t => t.env.map Env.sustain) (exec (.envSetp 0 2 0x40400000#32) (envCore 2 .attack fZero))
        = some [fOne, fOne] := by decide +kernel

theorem test_envGetp : view State.resp (exec (.envGetp 0 4) (core 2)) = some 3#32 := by decide +kernel

theorem test_envStart :
    view (fun t => t.env.map fun e => (e.phase, e.control, e.active))
        (exec (.envStart 0) (envCore 2 .sustain fOne))
      = some [(.attack, fZero, true), (.release, fZero, false)] := by decide +kernel

theorem test_envRel :
    view (fun t => t.env.map fun e => (e.phase, e.control, e.active))
        (exec (.envRel 0) (envCore 2 .sustain fHalf))
      = some [(.release, fHalf, true), (.release, fZero, false)] := by decide +kernel

/-- Steps 8 and 9: 0.3 goes to 0x3DCCCCCE with the flag set, then to +0.0 with it clear. -/
theorem test_envStep :
    view (fun t => (t.env.map Env.control, t.resp)) (exec (.envStep 0) (envCore 2 .release 0x3E99999A#32))
        = some ([0x3DCCCCCE#32, fZero], 1#32)
      ∧ view (fun t => (t.env.map Env.control, t.resp)) (exec (.envStep 0) (envCore 2 .release 0x3DCCCCCE#32))
        = some ([fZero, fZero], 0#32) := by decide +kernel

/-! ### DLY (section 3.5) -/

/-- Vector 1: output level 1.0, length 3, feedback 0.5. -/
def delayCore : State :=
  putDly (load (core 7) 0 [fOne, fZero, fZero, fZero, fZero, fZero, fZero]) 0
    { Dly.hardReset with length := 3, outLevel := fOne, feedback := fHalf }

theorem test_dlyProc :
    samples (exec (.dlyProc 0 1 0) delayCore) 1 = [fOne, fZero, fOne, fZero, fHalf, fZero, fQuarter] := by
  decide +kernel

/-- E6: the same block in place. -/
theorem test_dlyProci :
    samples (exec (.dlyProci 0 0) delayCore) 0 = [fOne, fZero, fOne, fZero, fHalf, fZero, fQuarter] := by
  decide +kernel

/-- Length 3 and feedback stay; the cursor and the buffer are cleared. -/
theorem test_dlyReset :
    view State.dly (exec (.dlyReset 0)
        (putDly (core 2) 0 ⟨3, fOne, fOne, fHalf, 5, [(2, fOne)]⟩))
      = some [⟨3, fOne, fOne, fHalf, 0, []⟩, Dly.hardReset] := by decide +kernel

theorem test_dlySetp :
    view (fun t => t.dly.map Dly.length) (exec (.dlySetp 0 0 0xFFFFFFFF#32) delayCore) = some [0, 0]
      ∧ view (fun t => t.dly.map Dly.length) (exec (.dlySetp 1 0 100#32) delayCore) = some [3, 8] := by
  decide +kernel

theorem test_dlyGetp : view State.resp (exec (.dlyGetp 0 0) delayCore) = some 3#32 := by decide +kernel

/-! ### CMB and APF (section 3.6) -/

/-- Vector 1: gain 0.5, limit 4. -/
theorem test_cmbProc :
    samples (exec (.cmbProc 0 1 0)
        (putCmb (load (core 5) 0 [fOne, fZero, fZero, fZero, fZero]) 0 ⟨4, fHalf, 0, []⟩)) 1
      = [fZero, fZero, fZero, fZero, fOne] := by decide +kernel

/-- Vector 3: the cursor stands outside a lowered limit, inside the buffer. -/
theorem test_cmbProci :
    let s := putCmb (load (core 3) 0 [fZero, fZero, fZero]) 0
      ⟨2, fZero, 2, [(0, 0x40E00000#32), (1, 0x41000000#32), (2, 0x40400000#32), (3, 0x40800000#32)]⟩
    samples (exec (.cmbProci 0 0) s) 0 = [0x40400000#32, 0x41000000#32, 0x40E00000#32]
      ∧ view (fun t => t.cmb[0]?) (exec (.cmbProci 0 0) s)
        = some (some ⟨2, fZero, 1, [(3, 0x40800000#32)]⟩) := by decide +kernel

theorem test_cmbReset :
    view State.cmb (exec (.cmbReset 1) (putCmb (core 2) 1 ⟨6, fHalf, 3, [(0, fOne)]⟩))
      = some [⟨8, fZero, 0, []⟩, ⟨6, fHalf, 0, []⟩] := by decide +kernel

theorem test_cmbSetp :
    view (fun t => t.cmb.map Line.limit) (exec (.cmbSetp 0 0 0#32) (core 2)) = some [1, 8]
      ∧ view (fun t => t.cmb.map Line.limit) (exec (.cmbSetp 0 0 99#32) (core 2)) = some [8, 8] := by
  decide +kernel

theorem test_cmbGetp : view State.resp (exec (.cmbGetp 0 0) (core 2)) = some 8#32 := by decide +kernel

/-- Vector 4: gain 0.5, limit 2. -/
theorem test_apfProc :
    samples (exec (.apfProc 0 1 0)
        (putApf (load (core 4) 0 [fOne, fZero, fZero, fZero]) 0 ⟨2, fHalf, 0, []⟩)) 1
      = [0xBF000000#32, fZero, 0x3F400000#32, fZero] := by decide +kernel

/-- Vector 5: at hard reset a pure delay of 4. -/
theorem test_apfProci :
    samples (exec (.apfProci 0 0)
        (load (core 5) 0 [fOne, fTwo, fFour, fHalf, fQuarter])) 0
      = [fZero, fZero, fZero, fZero, fOne] := by decide +kernel

theorem test_apfReset :
    view State.apf (exec (.apfReset 0) (putApf (core 2) 0 ⟨2, fHalf, 1, [(1, fOne)]⟩))
      = some [⟨2, fHalf, 0, []⟩, ⟨4, fZero, 0, []⟩] := by decide +kernel

theorem test_apfSetp :
    view (fun t => t.apf.map Line.limit) (exec (.apfSetp 0 0 0xFFFFFFFD#32) (core 2)) = some [1, 4]
      ∧ view (fun t => t.apf.map Line.gain) (exec (.apfSetp 1 1 0x7FC01234#32) (core 2))
        = some [fZero, 0x7FC01234#32] := by decide +kernel

theorem test_apfGetp : view State.resp (exec (.apfGetp 0 0) (core 2)) = some 4#32 := by decide +kernel

/-! ### REV (section 3.8, E4) -/

/-- Level 1.0, an impulse in block 0. -/
def reverbCore : State :=
  putRev (load (core 8) 0 [fOne, fZero, fZero, fZero, fZero, fZero, fZero, fZero]) 0
    { Rev.hardReset Config.test with level := fOne }

theorem test_revProc :
    samples (exec (.revProc 0 1 0) reverbCore) 1
      = [fOne, fZero, fZero, fZero, fZero, 0xBDAF9DB2#32, fZero, 0xBCBEAB38#32] := by decide +kernel

/-- At hard-reset level the output is the input and the buffers fill. -/
theorem test_revProci :
    let s := load (core 1) 0 [fTwo]
    samples (exec (.revProci 0 0) s) 0 = [fTwo]
      ∧ view (fun t => t.rev.map fun r => (r.cb3.buf, r.cb3.cur)) (exec (.revProci 0 0) s)
        = some [([(0, fTwo)], 1), ([], 0)] := by decide +kernel

theorem test_revReset :
    view State.rev (exec (.revReset 0) (putRev (core 2) 0
        { Rev.hardReset Config.test with level := fOne, ap1 := ⟨2, fHalf, 1, [(0, fOne)]⟩ }))
      = some [{ Rev.hardReset Config.test with level := fOne, ap1 := ⟨2, fHalf, 0, []⟩ },
          Rev.hardReset Config.test] := by decide +kernel

/-- `TIME` 0.5 gives (2, 3, 4, 5) and (2, 1, 1). -/
theorem test_revSetp :
    view (fun t => t.rev.map fun r => [r.cb0, r.cb1, r.cb2, r.cb3, r.ap0, r.ap1, r.ap2].map Line.limit)
        (exec (.revSetp 0 1 0x3F000000#32) (core 2))
      = some [[2, 3, 4, 5, 2, 1, 1], [5, 7, 9, 11, 4, 3, 2]] := by decide +kernel

theorem test_revGetp :
    view State.resp (exec (.revGetp 0 9) (core 2)) = some 5#32
      ∧ view State.resp (exec (.revGetp 0 6) (core 2)) = some 0x3F333333#32 := by decide +kernel

/-! ### PHA (section 3.9) -/

/-- A phaser with the given depth, gain 0.5, an impulse in block 0 and the modulation in block 2. -/
def phaserCore (depth : F32) (mod : List F32) : State :=
  putPha (load (load (core mod.length) 0 (fOne :: List.replicate (mod.length - 1) fZero)) 2 mod) 0
    { Pha.hardReset Config.test with depth := depth, gain := fHalf }

/-- Vector 1, and the cursor after its first three samples. -/
theorem test_phaProc :
    samples (exec (.phaProc 0 1 0 2) (phaserCore fHalf [fZero, fOne, fMinusOne])) 1
        = [0x3FA00000#32, fZero, 0xBEC00000#32]
      ∧ view (fun t => t.pha.map fun ph => ph.stages.map PhaStage.cur)
          (exec (.phaProc 0 1 0 2) (phaserCore fHalf [fZero, fOne, fMinusOne]))
        = some [[1], [0]] := by decide +kernel

/-- Vector 2: the modulation far outside [-1, 1]. -/
theorem test_phaProci :
    samples (exec (.phaProci 0 0 2) (phaserCore fOne [0x40A00000#32, 0xC0A00000#32])) 0
      = [0x3FC00000#32, 0xBF400000#32] := by decide +kernel

theorem test_phaReset :
    view State.pha (exec (.phaReset 0) (putPha (core 2) 0 ⟨fHalf, fOne, [⟨3, [(1, fOne)]⟩]⟩))
      = some [⟨fHalf, fOne, [⟨0, []⟩]⟩, Pha.hardReset Config.test] := by decide +kernel

theorem test_phaSetp :
    view (fun t => t.pha.map Pha.depth) (exec (.phaSetp 0 0 fTwo) (core 2)) = some [fOne, fZero] := by
  decide +kernel

theorem test_phaGetp :
    view State.resp (exec (.phaGetp 0 2) (putPha (core 2) 0 ⟨fHalf, fOne, [⟨3, []⟩]⟩)) = some 3#32 := by
  decide +kernel

/-! ### VIB and TRM (section 3.10) -/

/-- Vector 1, block 1: the centre delay becomes 1 before the first sample. -/
theorem test_vibProc :
    let s := putVib (load (load (core 3) 0 [fOne, fTwo, 0x40400000#32]) 2 [fZero, fZero, fZero]) 0
      { Vib.hardReset with depth := fOne, intensity := 2 }
    samples (exec (.vibProc 0 1 0 2) s) 1 = [fZero, fOne, fTwo]
      ∧ view (fun t => t.vib.map Vib.intenCur) (exec (.vibProc 0 1 0 2) s) = some [1, 0] := by decide +kernel

/-- Vector 2, its second sample: an infinite modulation reads the oldest slot. -/
theorem test_vibProci :
    samples (exec (.vibProci 0 0 2) (putVib (load (load (core 1) 0 [fTwo]) 2 [0x7F800000#32]) 0
        ⟨fOne, 2, 0, 1, [(0, fOne), (2, fFour)]⟩)) 0 = [fFour] := by decide +kernel

theorem test_vibReset :
    view State.vib (exec (.vibReset 0) (putVib (core 2) 0 ⟨fOne, 2, 1, 3, [(0, fOne)]⟩))
      = some [⟨fOne, 2, 0, 0, []⟩, Vib.hardReset] := by decide +kernel

/-- 9 stores 3 and -1 stores 0. -/
theorem test_vibSetp :
    view (fun t => t.vib.map Vib.intensity) (exec (.vibSetp 0 1 9#32) (core 2)) = some [3, 0]
      ∧ view (fun t => t.vib.map Vib.intensity) (exec (.vibSetp 0 1 0xFFFFFFFF#32) (core 2))
        = some [0, 0] := by decide +kernel

theorem test_vibGetp :
    view State.resp (exec (.vibGetp 0 2) (putVib (core 2) 0 ⟨fOne, 2, 1, 3, []⟩)) = some 1#32 := by
  decide +kernel

/-- Vector 6: external modulation. -/
theorem test_trmProc :
    samples (exec (.trmProc 0 1 0 2)
        (putTrm (load (load (core 4) 0 [fOne, fOne, fMinusTwo, fHalf]) 2 [fOne, fMinusOne, fZero, fHalf]) 0
          { Trm.hardReset with depth := fHalf, modSrc := .external })) 1
      = [fOne, fHalf, 0xBFC00000#32, 0x3EE00000#32] := by decide +kernel

/-- Vector 5: the internal LFO, which ends where it began. -/
theorem test_trmProci :
    let s := putTrm (load (load (core 4) 0 [fOne, fOne, fOne, fOne]) 2 [fZero, fZero, fZero, fZero]) 0
      { Trm.hardReset with depth := fHalf, rate := 0x40000000#32 }
    samples (exec (.trmProci 0 0 2) s) 0 = [0x3F400000#32, fOne, 0x3F400000#32, fHalf]
      ∧ view (fun t => t.trm.map Trm.lfoPhase) (exec (.trmProci 0 0 2) s) = some [0#32, 0#32] := by
  decide +kernel

theorem test_trmReset :
    view State.trm (exec (.trmReset 0) (putTrm (core 2) 0 ⟨fHalf, .external, 7#32, 8#32, 9#32⟩))
      = some [⟨fHalf, .external, 7#32, 8#32, 0#32⟩, Trm.hardReset] := by decide +kernel

theorem test_trmSetp :
    view (fun t => t.trm.map Trm.shift) (exec (.trmSetp 1 3 0x80000000#32) (core 2))
        = some [0#32, 0x80000000#32]
      ∧ view (fun t => t.trm.map Trm.modSrc) (exec (.trmSetp 0 1 2#32) (core 2))
        = some [.external, .internal] := by decide +kernel

theorem test_trmGetp :
    view State.resp (exec (.trmGetp 0 4) (putTrm (core 2) 0 { Trm.hardReset with lfoPhase := 9#32 }))
      = some 9#32 := by decide +kernel

/-! ### PSH (section 3.11) -/

/-- A pitch shifter of the given speed, fully wet. -/
def shiftCore (speed : F32) (xs : List F32) : State :=
  putPsh (load (core xs.length) 0 xs) 0 { Psh.hardReset with speed := speed, mix := fOne }

/-- Speed 2.0. -/
theorem test_pshProc :
    samples (exec (.pshProc 0 1 0) (shiftCore fTwo [fOne, fTwo, 0x40400000#32, fFour])) 1
      = [fZero, fZero, fHalf, 0x3F400000#32] := by decide +kernel

/-- Speed 0.5, and the read position it leaves. -/
theorem test_pshProci :
    let s := shiftCore fHalf [fOne, fTwo, 0x40400000#32, fFour]
    samples (exec (.pshProci 0 0) s) 0 = [fZero, fQuarter, fHalf, fOne]
      ∧ view (fun t => t.psh.map fun u => (u.wcur, u.rpos)) (exec (.pshProci 0 0) s)
        = some [(4, fTwo), (0, fZero)] := by decide +kernel

theorem test_pshReset :
    view State.psh (exec (.pshReset 0) (putPsh (core 2) 0 ⟨fTwo, fHalf, fOne, 3, fOne, [(0, fOne)]⟩))
      = some [⟨fTwo, fHalf, fOne, 0, fZero, []⟩, Psh.hardReset] := by decide +kernel

/-- 9.0 stores 4.0 and -1.0 stores 0.0. -/
theorem test_pshSetp :
    view (fun t => t.psh.map Psh.speed) (exec (.pshSetp 0 0 0x41100000#32) (core 2)) = some [fFour, fOne]
      ∧ view (fun t => t.psh.map Psh.speed) (exec (.pshSetp 1 0 fMinusOne) (core 2))
        = some [fOne, fZero] := by decide +kernel

theorem test_pshGetp : view State.resp (exec (.pshGetp 0 0) (core 2)) = some 0x3F800000#32 := by
  decide +kernel

/-! ### A state and operands that meet the hypotheses of each obligation

Each clause at a boundary of its range: the last instance, block or sample there is, the first that
there is not. `core 2` has two instances of each class, four block registers and blocks of two. -/

/-- `core 2` keeps the index invariants: each clause of `State.Wf` is evaluated on its own. -/
theorem wf_core : (core 2).Wf := by
  repeat' refine And.intro ?_ ?_
  all_goals decide +kernel

/-- The same core with something for the host to do. -/
theorem wf_asked (acts : List HostAction) : (asked (core 2) acts).Wf := wf_core

theorem witness_DecodeOfEncode :
    WellFormed (.phaProc 255 255 255 255) = true ∧ WellFormed (.trmSetp 255 255 0xFFFFFFFF#32) = true := by
  decide

theorem witness_EncodeOfDecode :
    decode 0x90FFFFFF000000FF#64 = some (.phaProc 255 255 255 255) := by decide

theorem witness_DecodeFollowsOpcodeTable :
    ∃ r, opcodeTable[48]? = some r ∧ r ∈ opcodeTable ∧ r.covers 0x94FFFF0000000000#64 = true :=
  ⟨_, rfl, List.mem_of_getElem? (rfl : opcodeTable[48]? = _), by decide⟩

theorem witness_UnmatchedWordsRaiseIllegalOpcode :
    statusFault (core 2).status = false
      ∧ (∀ r ∈ opcodeTable, r.covers 0xCFFFFFFFFFFFFFFF#64 = false)
      ∧ 0xD ≤ cwField 0xD000000000000000#64 60 4 := by decide +kernel

theorem witness_StepRunsTheDecodedCommand :
    configLegal (core 2).cfg = true
      ∧ (asked (core 2) [.issue 0#64]).host = .issue 0#64 :: [] ∧ statusFault (core 2).status = false
      ∧ decode 0#64 = some .sysNop ∧ decode 0xFFFFFFFFFFFFFFFF#64 = none := by decide +kernel

theorem witness_FaultStateIgnoresCommands :
    configLegal faulted.cfg = true ∧ statusFault faulted.status = true ∧ 3 < faulted.cfg.nBlk
      ∧ 1 < faulted.cfg.blockLen
      ∧ [HostAction.issue 0#64, .readSample 3 1, .writeSample 3 1 fOne, .readStatus, .readFaultcw,
          .readResp].all (fun a => (asked faulted [a]).host == a :: []) = true := by decide +kernel

theorem witness_HostPortActions :
    configLegal { Config.test with nBlk := 257 } = false ∧ configLegal (core 2).cfg = true
      ∧ (asked (core 2) []).host = [] ∧ 3 < (core 2).cfg.nBlk ∧ 1 < (core 2).cfg.blockLen
      ∧ (core 2).cfg.nBlk ≤ 4 ∧ (core 2).cfg.blockLen ≤ 2
      ∧ [HostAction.writeSample 3 1 fOne, .writeSample 4 1 fOne, .writeSample 3 2 fOne,
          .readSample 3 1, .readSample 4 0, .readSample 0 2, .readStatus, .readFaultcw, .readResp].all
          (fun a => (asked (core 2) [a]).host == a :: []) = true := by decide +kernel

theorem witness_HardResetGivesTheResetColumns :
    configLegal faulted.cfg = true ∧ (asked faulted [.hardReset]).host = .hardReset :: [] := by
  decide +kernel

/-- A command that fails each check in turn, and one that fails none. -/
theorem witness_ChecksDecideFaultOrCompletion :
    (core 2).Wf ∧ failedCheck (core 2).cfg (.dlyProc 2 9 9) = some .illegalInstance
      ∧ failedCheck (core 2).cfg (.dlyProc 1 4 4) = some .illegalBlock
      ∧ failedCheck (core 2).cfg (.phaProc 1 3 0 3) = some .illegalAlias
      ∧ failedCheck (core 2).cfg (.phaGetp 1 3) = some .illegalRegister
      ∧ failedCheck (core 2).cfg (.phaGetp 1 2) = none
      ∧ failedCheck (core 2).cfg (.phaProc 1 3 2 2) = none :=
  ⟨wf_core, by decide, by decide, by decide, by decide, by decide, by decide⟩

theorem witness_FaultIsStickyUntilHardReset :
    statusFault faulted.status = true
      ∧ HostAction.hardReset ∉ (asked faulted [.issue 0#64, .readStatus]).host
      ∧ view State.status (Sys2Proof.core.run 3 (asked faulted [.issue 0#64, .readStatus]))
        = some 0x41#32 := by decide +kernel

theorem witness_CommandsWriteOnlyTheirOwn :
    view State.status (exec (.envStep 1) (core 2)) = some 0#32
      ∧ targetUnit (.envStep 1) ≠ some (.env, 0) ∧ writesResp (.dlyProc 1 3 2) = false
      ∧ view State.status (exec (.dlyProc 1 3 2) (core 2)) = some 0#32
      ∧ targetBlock (.dlyProc 1 3 2) = some 3 ∧ failedCheck (core 2).cfg (.dlyProc 1 3 2) = none
      ∧ view State.status (exec (.dlyProc 2 3 2) (core 2)) = some 0x21#32 := by decide +kernel

/-- The state of the last clause of that statement keeps the index invariants. -/
theorem witness_CommandsWriteOnlyTheirOwn_wf : (core 2).Wf := wf_core

theorem witness_IndexInvariantsAreKept :
    (asked (core 2) [.readSample 4 0]).Wf ∧ (asked (core 2) [.readStatus]).Wf
      ∧ step (asked (core 2) [.readSample 4 0]) = .refused .samplePortIndex
      ∧ view State.hostData (step (asked (core 2) [.readStatus])) = some 0#64 :=
  ⟨wf_asked _, wf_asked _, rfl, by decide +kernel⟩

/-- A step that clamps a parameter, from a core whose parameters are in range. -/
theorem witness_ParameterRangesAreKept :
    (asked (core 2) [.issue 0x930000003FC00000#64]).ParamsInRange
      ∧ view (fun t => t.pha.map Pha.depth) (step (asked (core 2) [.issue 0x930000003FC00000#64]))
        = some [fOne, fZero] := by decide +kernel

theorem witness_EnvelopeControlStaysInRange :
    (∀ e ∈ (asked (envCore 2 .attack 0x3F400000#32) [.issue 0x4700000000000000#64]).env, Env.InRange e)
      ∧ view (fun t => t.env.map Env.control)
          (step (asked (envCore 2 .attack 0x3F400000#32) [.issue 0x4700000000000000#64]))
        = some [fOne, fZero] := by decide +kernel

theorem witness_ReadPositionStaysInRange :
    (∀ u ∈ (core 1).psh, Psh.InRange (core 1).cfg u)
      ∧ Psh.InRange Config.test { Psh.hardReset with speed := fFour, rpos := 0x40FFFFFF#32 }
      ∧ view (fun t => t.psh.map Psh.rpos) (step (asked (core 1) [.issue 0xC100000000000000#64]))
        = some [fOne, fZero] := by decide +kernel

theorem witness_CoefficientsMatchParameters :
    (asked (core 2) [.issue 0x330000003F000000#64]).Designed
      ∧ view (fun t => t.flt.map Flt.b0) (step (asked (core 2) [.issue 0x330000003F000000#64]))
        = some [0x3CE17EF9#32, fOne] := by decide +kernel

/-- Finite operands with a nonzero and a zero divisor, a nonzero and a zero sum; a NaN at each end of the
NaN patterns; an infinity with one of the other sign, with a zero, with the least and the greatest finite
operand; a zero of each sign as a divisor. -/
theorem witness_ArithmeticRoundsToNearest :
    fIsFinite 0x7F7FFFFF#32 = true ∧ fIsFinite 0x80000001#32 = true ∧ fUnits 0x80000001#32 ≠ 0
      ∧ fInt 0x7F7FFFFF#32 + fInt 0x80000001#32 ≠ 0 ∧ fInt fOne + fInt fMinusOne = 0
      ∧ fInt fZero + fInt 0x80000000#32 = 0
      ∧ fIsNaN 0x7F800001#32 = true ∧ fIsNaN 0xFFFFFFFF#32 = true
      ∧ fIsInf 0x7F800000#32 = true ∧ fIsInf 0xFF800000#32 = true
      ∧ fSign 0x7F800000#32 ≠ fSign 0xFF800000#32 ∧ fIsInf 0x7F7FFFFF#32 = false
      ∧ fIsNaN 0x7F800000#32 = false ∧ fMag 0x80000000#32 = 0 ∧ fMag 0x80000001#32 ≠ 0
      ∧ fMag fZero = 0 := by decide +kernel

/-- Each clause at the ends of its range. -/
theorem witness_ConversionsAreTotalAndExact :
    fIsNaN 0x7FC00000#32 = true ∧ fLe 0x80000000#32 0#32 = true ∧ fLe 0#32 0#32 = true
      ∧ fGe 0x4F800000#32 0x4F800000#32 = true
      ∧ fLt 0#32 0x00000001#32 = true ∧ fLt 0x4F7FFFFF#32 0x4F800000#32 = true
      ∧ fGe 0x4F000000#32 0x4F000000#32 = true ∧ fLe 0xCF000000#32 0xCF000000#32 = true
      ∧ fLt 0xCF000000#32 0xCEFFFFFF#32 = true ∧ fLt 0x4EFFFFFF#32 0x4F000000#32 = true
      ∧ (0 : Nat) ≤ 2 ^ 24 ∧ (2 ^ 24 : Nat) ≤ 2 ^ 24 ∧ (2 ^ 32 - 1 : Nat) < 2 ^ 32 ∧ fIsNaN 0x80000000#32 = false
      ∧ (1 : Nat) ≤ 8 := by decide +kernel

theorem witness_SineTableShape :
    2 ≤ ({ Config.test with wtBits := 2 } : Config).wtBits
      ∧ 1 < ({ Config.test with wtBits := 2 } : Config).wtLen / 2
      ∧ 3 < ({ Config.test with wtBits := 2 } : Config).wtLen := by decide +kernel

theorem witness_OtherTablesAndIndex :
    2 ≤ ({ Config.test with wtBits := 23 } : Config).wtBits
      ∧ ({ Config.test with wtBits := 23 } : Config).wtBits ≤ 23
      ∧ 8388607 < ({ Config.test with wtBits := 23 } : Config).wtLen := by decide +kernel

/-- The first register that `SETP` refuses, and the first that `GETP` refuses. -/
theorem witness_SysCommands :
    2 ≤ 2 ∧ view State.status (exec (.sysSetp 2 0#32) (core 2)) = some 0x51#32
      ∧ 5 ≤ 5 ∧ view State.status (exec (.sysGetp 5) (core 2)) = some 0x51#32 := by decide +kernel

theorem witness_BufCommands :
    3 < (core 2).cfg.nBlk ∧ (core 2).cfg.nBlk ≤ 4
      ∧ view State.status (exec (.bufCpy 3 3) (core 2)) = some 0#32
      ∧ view State.status (exec (.bufAcc 3 4) (core 2)) = some 0x31#32 := by decide +kernel

/-- A core of two block registers. -/
def twoBlocks : State := State.powerOn { Config.test with blockLen := 1, nBlk := 2 } 0

/-- A class with a modulation block, and one without in a build of two block registers, where no third
block is asked for. -/
theorem witness_InPlaceEqualsOutOfPlace :
    UnitClass.pha ≠ .osc ∧ usesModulation .pha = true ∧ 0 ≠ 1 ∧ 0 < (core 1).cfg.nBlk ∧ 1 < (core 1).cfg.nBlk ∧ 3 < (core 1).cfg.nBlk
      ∧ 3 ≠ 0 ∧ 3 ≠ 1 ∧ 1 < instances (core 1).cfg .pha ∧ (core 1).Populated
      ∧ view State.status (exec (procOf .pha 1 1 0 3) (load (load (core 1) 0 [fOne]) 3 [fHalf])) = some 0#32
      ∧ view State.status (exec (prociOf .pha 1 0 3) (load (load (core 1) 0 [fOne]) 3 [fHalf])) = some 0#32
      ∧ usesModulation .flt = false ∧ twoBlocks.Populated ∧ 1 < twoBlocks.cfg.nBlk
      ∧ view State.status (exec (procOf .flt 1 1 0 0) (load twoBlocks 0 [fOne])) = some 0#32
      ∧ view State.status (exec (prociOf .flt 1 0 0) (load twoBlocks 0 [fOne])) = some 0#32 := by
  decide +kernel

/-- For the statements about the block commands of `OSC`, `FLT` and `ENV`: the last instance and the
last block register. -/
theorem witness_OscBlock_FltBlock_EnvBlock :
    (core 2).osc[1]? = some Osc.hardReset ∧ (core 2).flt[1]? = some (Flt.hardReset Config.test)
      ∧ (core 2).env[1]? = some Env.hardReset ∧ 3 < (core 2).cfg.nBlk ∧ 0 < (core 2).cfg.nBlk ∧ 3 ≠ 0 := by
  decide +kernel

theorem witness_DlyBlock :
    (core 2).dly[1]? = some Dly.hardReset ∧ Dly.Ok (core 2).cfg Dly.hardReset ∧ 3 < (core 2).cfg.nBlk
      ∧ 0 < (core 2).cfg.nBlk ∧ 3 ≠ 0 := by decide +kernel

theorem witness_CombAllpassBlock :
    (core 2).cmb[1]? = some (Line.hardReset 8 fZero) ∧ Line.Ok (core 2).cfg.capCmb (Line.hardReset 8 fZero)
      ∧ (core 2).apf[1]? = some (Line.hardReset 4 fZero)
      ∧ Line.Ok (core 2).cfg.capApf (Line.hardReset 4 fZero) ∧ 3 < (core 2).cfg.nBlk
      ∧ 0 < (core 2).cfg.nBlk ∧ 3 ≠ 0 := by decide +kernel

theorem witness_RevBlock :
    (core 2).rev[1]? = some (Rev.hardReset Config.test) ∧ Rev.Ok (core 2).cfg (Rev.hardReset Config.test)
      ∧ 3 < (core 2).cfg.nBlk ∧ 0 < (core 2).cfg.nBlk ∧ 3 ≠ 0 := by decide +kernel

theorem witness_PhaBlock :
    (core 2).pha[1]? = some (Pha.hardReset Config.test) ∧ Pha.Ok (core 2).cfg (Pha.hardReset Config.test)
      ∧ 3 < (core 2).cfg.nBlk ∧ 0 < (core 2).cfg.nBlk ∧ 2 < (core 2).cfg.nBlk ∧ 3 ≠ 0 ∧ 2 ≠ 3 := by
  decide +kernel

theorem witness_VibBlock_TrmBlock :
    (core 2).vib[1]? = some Vib.hardReset ∧ Vib.Ok (core 2).cfg Vib.hardReset
      ∧ (core 2).trm[1]? = some Trm.hardReset
      ∧ 3 < (core 2).cfg.nBlk ∧ 0 < (core 2).cfg.nBlk ∧ 2 < (core 2).cfg.nBlk ∧ 3 ≠ 0 ∧ 2 ≠ 3 := by
  decide +kernel

theorem witness_PshBlock :
    (core 2).psh[1]? = some Psh.hardReset ∧ Psh.Ok (core 2).cfg Psh.hardReset ∧ 3 < (core 2).cfg.nBlk
      ∧ 0 < (core 2).cfg.nBlk ∧ 3 ≠ 0 := by decide +kernel

/-- Each register-file statement speaks of an instance that exists and, of the refused registers, at
their first number. -/
theorem witness_register_files :
    (core 2).osc[1]? = some Osc.hardReset ∧ (core 2).flt[1]? = some (Flt.hardReset Config.test)
      ∧ (core 2).env[1]? = some Env.hardReset ∧ (core 2).dly[1]? = some Dly.hardReset
      ∧ (core 2).cmb[1]? = some (Line.hardReset 8 fZero) ∧ (core 2).apf[1]? = some (Line.hardReset 4 fZero)
      ∧ (core 2).rev[1]? = some (Rev.hardReset Config.test)
      ∧ (core 2).pha[1]? = some (Pha.hardReset Config.test)
      ∧ (Pha.hardReset Config.test).stages.length = (core 2).cfg.nPhaStages
      ∧ (core 2).vib[1]? = some Vib.hardReset ∧ (core 2).trm[1]? = some Trm.hardReset
      ∧ (core 2).psh[1]? = some Psh.hardReset
      ∧ [exec (.oscSetp 1 6 0#32) (core 2), exec (.oscGetp 1 7) (core 2), exec (.fltSetp 1 3 0#32) (core 2),
          exec (.fltGetp 1 10) (core 2), exec (.envSetp 1 4 0#32) (core 2), exec (.envGetp 1 7) (core 2),
          exec (.dlySetp 1 4 0#32) (core 2), exec (.dlyGetp 1 5) (core 2), exec (.cmbSetp 1 2 0#32) (core 2),
          exec (.cmbGetp 1 3) (core 2), exec (.apfSetp 1 2 0#32) (core 2), exec (.apfGetp 1 3) (core 2),
          exec (.revSetp 1 9 0#32) (core 2), exec (.revGetp 1 23) (core 2),
          exec (.phaSetp 1 2 0#32) (core 2), exec (.phaGetp 1 3) (core 2), exec (.vibSetp 1 2 0#32) (core 2),
          exec (.vibGetp 1 4) (core 2), exec (.trmSetp 1 4 0#32) (core 2), exec (.trmGetp 1 5) (core 2),
          exec (.pshSetp 1 3 0#32) (core 2), exec (.pshGetp 1 5) (core 2)].all
          (fun out => view State.status out == some 0x51#32) = true := by decide +kernel

/-- The last register of a reverb and the last stage of a phaser. -/
theorem witness_RevRegisters_PhaRegisters :
    view State.resp (exec (.revGetp 1 22) (core 2)) = some 0#32
      ∧ (Pha.hardReset Config.test).stages[0]? = some PhaStage.hardReset := by decide +kernel

theorem witness_FltDesignAtFullCutoff :
    2 ≤ Config.test.wtBits ∧ Config.test.wtBits ≤ 23 ∧ fLt 0#32 0x00000001#32 = true := by decide +kernel

theorem witness_FltIsTheIdentityAtFullCutoff :
    let f := Flt.hardReset Config.test
    f.b0 = 0x3F800000#32 ∧ f.b1 = 0x40000000#32 ∧ f.b2 = 0x3F800000#32 ∧ f.a0 = 0x40000000#32
      ∧ f.a1 = 0x3F800000#32 ∧ fMag f.w0 = 0 ∧ fMag f.w1 = 0 ∧ fMag 0xFEFFFFFF#32 < 0x7F000000 := by
  decide +kernel

theorem witness_EnvStepArms_EnvHoldAndTermination :
    let e : EnvPhase → F32 → Env := fun p c => ⟨fZero, fZero, fZero, fZero, p, c, false⟩
    Env.InRange (e .attack 0x3F7FFFFF#32) ∧ fMag (e .attack 0x3F7FFFFF#32).attack = 0
      ∧ fLt 0x3F7FFFFF#32 0x3F800000#32 = true
      ∧ Env.InRange (e .decay 0x00000001#32) ∧ fMag (e .decay 0x00000001#32).decay = 0
      ∧ fLt (e .decay 0x00000001#32).sustain 0x00000001#32 = true
      ∧ Env.InRange (e .release fOne) ∧ fMag (e .release fOne).release = 0 ∧ fLt 0#32 fOne = true
      ∧ Env.InRange (e .release 0#32) ∧ (e .sustain fOne).phase = .sustain := by decide +kernel

/-- The delay at its longest and its shortest length. -/
theorem witness_DlySample :
    Dly.Ok Config.test ⟨8, fOne, fOne, fZero, 7, [(0, fOne)]⟩
      ∧ Dly.Ok Config.test ⟨1, fOne, fOne, fZero, 0, []⟩
      ∧ Dly.Ok Config.test ⟨0, fOne, fOne, fZero, 7, []⟩ := by decide +kernel

theorem witness_CombSample_AllpassSample :
    Line.Ok 8 ⟨8, fHalf, 7, [(7, fOne)]⟩ ∧ Line.Ok 1 ⟨1, fHalf, 0, []⟩ := by decide +kernel

/-- A gain of 0.0 and the largest below 1.0; the buffer's words are finite wherever one looks. -/
theorem witness_CombSlotsDecay :
    Line.Ok 8 ⟨4, 0x3F7FFFFF#32, 0, []⟩ ∧ inRange 0#32 0x3F800000#32 0x3F7FFFFF#32 = true
      ∧ inRange 0#32 0x3F800000#32 0#32 = true ∧ fLt 0x3F7FFFFF#32 0x3F800000#32 = true
      ∧ (∀ a, fIsFinite (wordOrZero [] a) = true)
      ∧ ∃ u', combStep 8 ⟨4, 0x3F7FFFFF#32, 0, []⟩ 0#32 = .ok (fZero, u') :=
  ⟨by decide, by decide, by decide, by decide, fun _ => rfl, _, rfl⟩

theorem witness_RevSample : Rev.Ok Config.test (Rev.hardReset Config.test) := by decide +kernel

theorem witness_PhaSample :
    Pha.Ok Config.test ⟨fHalf, fHalf, [⟨7, [(7, fOne)]⟩]⟩ ∧ 1 ≤ Config.test.capPha := by decide +kernel

theorem witness_VibSample : Vib.Ok Config.test ⟨fOne, 3, 3, 7, [(0, fOne)]⟩ := by decide +kernel

theorem witness_PshSample :
    Psh.Ok Config.test ⟨fFour, fZero, fOne, 7, 0x40FFFFFF#32, [(7, fOne)]⟩ ∧ Config.test.capPsh % 2 = 0 := by
  decide +kernel

theorem witness_PshDelaysByHalfTheBuffer :
    let u : Psh := ⟨0x3F800000#32, 0#32, 0x3F800000#32, 7, 0x40E00000#32, []⟩
    configLegal Config.test = true ∧ Psh.Ok Config.test u ∧ u.rpos = u2f u.wcur
      ∧ fIsFinite 0xFF7FFFFF#32 = true ∧ ∀ a, fIsFinite (wordOrZero u.buf a) = true :=
  ⟨by decide +kernel, by decide +kernel, by decide +kernel, by decide +kernel, fun _ => rfl⟩

end Sys2Proof.Tests
end

section
/-! SUPPORT. The four operations and the comparisons on every class of operands (R12): which sums are
invalid, what an infinity or a zero divisor gives, and that every other result is the exact one rounded
to nearest. -/

namespace Sys2Proof.Machine

/-! ### Classes of operands -/

theorem fIsInf_iff {x : F32} : fIsInf x = true ↔ fMag x = fInfMag := by simp [fIsInf]

theorem not_nan_of_inf {x : F32} (h : fIsInf x = true) : fIsNaN x = false := by
  simp [fIsNaN, fIsInf_iff.1 h]

theorem fMag_ne_zero_of_inf {x : F32} (h : fIsInf x = true) : fMag x ≠ 0 := by
  rw [fIsInf_iff.1 h]
  decide

theorem finite_of_fMag_zero {x : F32} (h : fMag x = 0) : fIsFinite x = true := by
  rw [fIsFinite_iff, h]
  decide

@[simp] theorem fIsInf_fNeg (x : F32) : fIsInf (fNeg x) = fIsInf x := by simp [fIsInf]

/-- Two infinities of one sign are one pattern. -/
theorem eq_of_inf_of_fSign {a b : F32} (ha : fIsInf a = true) (hb : fIsInf b = true)
    (hs : fSign a = fSign b) : a = b :=
  f32_ext hs ((fIsInf_iff.1 ha).trans (fIsInf_iff.1 hb).symm)

/-! ### Sums -/

/-- The sums that IEEE 754 calls invalid, or that have a NaN operand. -/
def sumInvalid (a b : F32) : Bool :=
  fIsNaN a || fIsNaN b || (fIsInf a && fIsInf b && (fSign a != fSign b))

theorem fSumWith_of_invalid (nan : F32) {a b : F32} (h : sumInvalid a b = true) :
    fSumWith nan a b = nan := by
  unfold fSumWith
  cases hn : fIsNaN a || fIsNaN b with
  | true => rfl
  | false =>
    simp only [sumInvalid, hn, Bool.false_or, Bool.and_eq_true] at h
    obtain ⟨⟨ha, hb⟩, hs⟩ := h
    simp only [ha, hb, hs, Bool.and_self, Bool.false_eq_true, if_true, if_false]

/-- A valid sum is a number, and it is not looked up among the free NaN patterns. -/
theorem fSumWith_of_valid (nan nan' : F32) {a b : F32} (h : sumInvalid a b = false) :
    fSumWith nan a b = fSumWith nan' a b ∧ fIsNaN (fSumWith nan a b) = false := by
  simp only [sumInvalid, Bool.or_eq_false_iff] at h
  obtain ⟨⟨ha, hb⟩, hs⟩ := h
  simp only [fSumWith, ha, hb, Bool.or_self, Bool.false_eq_true, if_false]
  cases hia : fIsInf a with
  | true =>
    rw [hia, Bool.true_and] at hs
    simp [hs, ha]
  | false =>
    cases fIsInf b with
    | true => simp [hb]
    | false => simp [fAddFinite_not_nan]

theorem fIsNaN_fSumWith {nan : F32} (hn : fIsNaN nan = true) (a b : F32) :
    fIsNaN (fSumWith nan a b) = sumInvalid a b := by
  cases h : sumInvalid a b with
  | true => rw [fSumWith_of_invalid nan h, hn]
  | false => exact (fSumWith_of_valid nan nan h).2

/-- A sum is a NaN exactly when it is invalid. -/
@[simp] theorem fIsNaN_fAdd (a b : F32) : fIsNaN (fAdd a b) = sumInvalid a b :=
  fIsNaN_fSumWith (fIsNaN_fNaNResult _ _ _) a b

@[simp] theorem fIsNaN_fSub (a b : F32) : fIsNaN (fSub a b) = sumInvalid a (fNeg b) :=
  fIsNaN_fSumWith (fIsNaN_fNaNResult _ _ _) a (fNeg b)

theorem sumInvalid_of_nan {a b : F32} (h : fIsNaN a = true ∨ fIsNaN b = true) :
    sumInvalid a b = true := by
  rcases h with h | h <;> simp [sumInvalid, h]

/-- A difference that is a number is the sum with the negated operand (R12). -/
theorem fSub_eq_fAdd_fNeg {a b : F32} (h : fIsNaN (fSub a b) = false) : fSub a b = fAdd a (fNeg b) :=
  (fSumWith_of_valid _ _ (by rwa [fIsNaN_fSub] at h)).1

theorem fSub_finite_eq {a b : F32} (ha : fIsFinite a = true) (hb : fIsFinite b = true) :
    fSub a b = fAdd a (fNeg b) := by
  rw [fSub_finite ha hb, fAdd_finite ha (by simpa using hb)]

/-- A sum of finite operands is the exact sum rounded to nearest, with its sign (R12). -/
theorem fAdd_nearest {a b : F32} (ha : fIsFinite a = true) (hb : fIsFinite b = true)
    (h : fInt a + fInt b ≠ 0) :
    ∃ m, NearestMag (fInt a + fInt b).natAbs 1 m ∧ fAdd a b = fPack (decide (fInt a + fInt b < 0)) m :=
  ⟨_, roundMag_nearest _ Nat.one_pos, by rw [fAdd_finite ha hb, fAddFinite, if_neg h]⟩

theorem fAdd_exact_zero {a b : F32} (ha : fIsFinite a = true) (hb : fIsFinite b = true)
    (h : fInt a + fInt b = 0) : fAdd a b = fPack (fSign a && fSign b) 0 := by
  rw [fAdd_finite ha hb, fAddFinite, if_pos h]

theorem fAdd_opposite_infs {a b : F32} (ha : fIsInf a = true) (hb : fIsInf b = true)
    (hs : fSign a ≠ fSign b) : fIsNaN (fAdd a b) = true := by
  simp [sumInvalid, ha, hb, hs]

/-- An infinity plus any number but the opposite infinity is that infinity. -/
theorem fAdd_inf_left {a b : F32} (ha : fIsInf a = true) (hb : fIsNaN b = false)
    (h : fIsInf b = false ∨ fSign a = fSign b) : fAdd a b = a := by
  have hv : (fIsInf b && (fSign a != fSign b)) = false := by
    rcases h with h | h <;> simp [h]
  simp [fAdd, fSumWith, not_nan_of_inf ha, hb, ha, hv]

theorem fAdd_inf_right {a b : F32} (ha : fIsInf a = true) (hb : fIsNaN b = false)
    (h : fIsInf b = false ∨ fSign a = fSign b) : fAdd b a = a := by
  cases hi : fIsInf b with
  | false => simp [fAdd, fSumWith, not_nan_of_inf ha, hb, ha, hi]
  | true =>
    have hs : fSign a = fSign b := by simpa [hi] using h
    obtain rfl := eq_of_inf_of_fSign ha hi hs
    exact fAdd_inf_left ha hb (.inr rfl)

/-! ### Products -/

theorem fIsNaN_fMul_of_nan {a b : F32} (h : fIsNaN a = true ∨ fIsNaN b = true) :
    fIsNaN (fMul a b) = true := by
  rcases h with h | h <;> simp [fMul, h]

/-- A product of finite operands is the exact product rounded to nearest (R12). -/
theorem fMul_nearest {a b : F32} (ha : fIsFinite a = true) (hb : fIsFinite b = true) :
    ∃ m, NearestMag (fUnits a * fUnits b) (2 ^ 149) m ∧ fMul a b = fPack (fSign a != fSign b) m :=
  ⟨_, roundMag_nearest _ (Nat.two_pow_pos 149), fMul_finite ha hb⟩

theorem fMul_inf_zero {a b : F32} (ha : fIsInf a = true) (hb : fMag b = 0) :
    fIsNaN (fMul a b) = true ∧ fIsNaN (fMul b a) = true := by
  simp [fMul, ha, hb, not_nan_of_inf ha, not_nan_of_finite (finite_of_fMag_zero hb)]

theorem fMul_inf {a b : F32} (ha : fIsInf a = true) (hb : fIsNaN b = false) (h0 : fMag b ≠ 0) :
    fMul a b = fPack (fSign a != fSign b) fInfMag ∧ fMul b a = fPack (fSign a != fSign b) fInfMag := by
  have hz := fMag_ne_zero_of_inf ha
  simp [fMul, not_nan_of_inf ha, hb, ha, h0, hz, bne_comm (a := fSign b)]

/-! ### Quotients -/

theorem fIsNaN_fDiv_of_nan {a b : F32} (h : fIsNaN a = true ∨ fIsNaN b = true) :
    fIsNaN (fDiv a b) = true := by
  rcases h with h | h <;> simp [fDiv, h]

/-- A quotient of finite operands, the divisor not a zero, is the exact quotient rounded to nearest
(R12). -/
theorem fDiv_nearest {a b : F32} (ha : fIsFinite a = true) (hb : fIsFinite b = true)
    (h : fUnits b ≠ 0) :
    ∃ m, NearestMag (fUnits a * 2 ^ 149) (fUnits b) m ∧ fDiv a b = fPack (fSign a != fSign b) m := by
  refine ⟨_, roundMag_nearest _ (Nat.pos_of_ne_zero h), ?_⟩
  have h0 : fMag b ≠ 0 := mt fUnits_eq_zero.2 h
  simp [fDiv, not_nan_of_finite ha, not_nan_of_finite hb, not_inf_of_finite ha, not_inf_of_finite hb, h0]

theorem fDiv_inf_inf {a b : F32} (ha : fIsInf a = true) (hb : fIsInf b = true) :
    fIsNaN (fDiv a b) = true := by
  simp [fDiv, not_nan_of_inf ha, not_nan_of_inf hb, ha, hb]

theorem fDiv_inf_left {a b : F32} (ha : fIsInf a = true) (hb : fIsNaN b = false)
    (hi : fIsInf b = false) : fDiv a b = fPack (fSign a != fSign b) fInfMag := by
  simp [fDiv, not_nan_of_inf ha, hb, ha, hi]

theorem fDiv_inf_right {a b : F32} (ha : fIsInf a = true) (hb : fIsNaN b = false)
    (hi : fIsInf b = false) : fDiv b a = fPack (fSign a != fSign b) 0 := by
  simp [fDiv, not_nan_of_inf ha, hb, ha, hi, bne_comm (a := fSign b)]

theorem fDiv_zero_zero {a b : F32} (ha : fMag a = 0) (hb : fMag b = 0) : fIsNaN (fDiv a b) = true := by
  have hfa := finite_of_fMag_zero ha
  have hfb := finite_of_fMag_zero hb
  simp [fDiv, not_nan_of_finite hfa, not_nan_of_finite hfb, not_inf_of_finite hfa,
    not_inf_of_finite hfb, ha, hb]

theorem fDiv_finite_zero {a b : F32} (ha : fIsFinite a = true) (h0 : fMag a ≠ 0) (hb : fMag b = 0) :
    fDiv a b = fPack (fSign a != fSign b) fInfMag := by
  have hfb := finite_of_fMag_zero hb
  simp [fDiv, not_nan_of_finite ha, not_nan_of_finite hfb, not_inf_of_finite ha,
    not_inf_of_finite hfb, h0, hb]

/-! ### Comparisons -/

theorem fLt_of_nan {a b : F32} (h : fIsNaN a = true ∨ fIsNaN b = true) : fLt a b = false := by
  rcases h with h | h <;> simp [fLt, h]

theorem fLe_of_nan {a b : F32} (h : fIsNaN a = true ∨ fIsNaN b = true) : fLe a b = false := by
  rcases h with h | h <;> simp [fLe, h]

theorem fLt_iff_fKey {a b : F32} (ha : fIsNaN a = false) (hb : fIsNaN b = false) :
    fLt a b = true ↔ fKey a < fKey b := by simp [fLt, ha, hb]

theorem fLe_iff_fKey {a b : F32} (ha : fIsNaN a = false) (hb : fIsNaN b = false) :
    fLe a b = true ↔ fKey a ≤ fKey b := by simp [fLe, ha, hb]

/-- `a < b` excludes `b ≤ a`, whatever the patterns. -/
theorem fLe_eq_false_of_fLt {a b : F32} (h : fLt a b = true) : fLe b a = false := by
  obtain ⟨ha, hb⟩ := fLt_notNaN h
  have hlt := (fLt_iff_fKey ha hb).1 h
  rw [← Bool.not_eq_true, fLe_iff_fKey hb ha]
  omega

/-- What `x` is at least keeps `x` from being at most anything lower. -/
theorem fLe_eq_false_of_ge {a b x : F32} (hx : fLe b x = true) (h : fLe b a = false) :
    fLe x a = false :=
  Bool.eq_false_iff.2 fun hxa => by simp [fLe_trans hx hxa] at h

/-- What `x` is at most keeps `x` from being at least anything higher. -/
theorem fLe_eq_false_of_le {a b x : F32} (hx : fLe x a = true) (h : fLe b a = false) :
    fLe b x = false :=
  Bool.eq_false_iff.2 fun hbx => by simp [fLe_trans hbx hx] at h

/-- Settles O21: each clause is the lemma about its class of operands. -/
theorem arithmeticRoundsToNearest : Obligations.ArithmeticRoundsToNearest := by
  refine ⟨fun a b ha hb => ?finite, fun a b h => ?nan, fun a b ha hb => ?compare,
    fun a b ha hb => ?infinite, fun a b ha hb => ?zeroDivisor⟩
  case finite =>
    exact ⟨fMul_nearest ha hb, fDiv_nearest ha hb, fAdd_nearest ha hb, fAdd_exact_zero ha hb,
      fSub_finite_eq ha hb⟩
  case nan =>
    have hsub : fIsNaN a = true ∨ fIsNaN (fNeg b) = true := by simpa using h
    exact ⟨(fIsNaN_fAdd a b).trans (sumInvalid_of_nan h),
      (fIsNaN_fSub a b).trans (sumInvalid_of_nan hsub), fIsNaN_fMul_of_nan h, fIsNaN_fDiv_of_nan h,
      fLt_of_nan h, fLe_of_nan h, fLt_of_nan h.symm, fLe_of_nan h.symm⟩
  case compare =>
    exact ⟨fLt_iff_fKey ha hb, fLe_iff_fKey ha hb, fLt_iff_fKey hb ha, fLe_iff_fKey hb ha,
      (fIsNaN_fSub a b).trans (fIsNaN_fAdd a (fNeg b)).symm, fSub_eq_fAdd_fNeg⟩
  case infinite =>
    exact ⟨fun hi hs => ⟨fAdd_opposite_infs ha hi hs, fAdd_opposite_infs hi ha hs.symm⟩,
      fun h => ⟨fAdd_inf_left ha hb h, fAdd_inf_right ha hb h⟩,
      fMul_inf_zero ha, fMul_inf ha hb, fDiv_inf_inf ha,
      fun hi => ⟨fDiv_inf_left ha hb hi, fDiv_inf_right ha hb hi⟩⟩
  case zeroDivisor =>
    exact ⟨fun h0 => fDiv_zero_zero h0 hb, fun h0 => fDiv_finite_zero ha h0 hb⟩

end Sys2Proof.Machine
end

section
/-! SUPPORT. The conversions and clamps of R13, case by case, and the whole numbers that `u2f` keeps
exactly. -/

namespace Sys2Proof.Machine

/-! ### `f2u32` -/

theorem f2u32_of_nan {x : F32} (h : fIsNaN x = true) : f2u32 x = 0 := by simp [f2u32, h]

theorem f2u32_of_le_zero {x : F32} (h : fLe x fZero = true) : f2u32 x = 0 := by simp [f2u32, h]

theorem f2u32_of_ge_two32 {x : F32} (h : fLe fTwo32 x = true) : f2u32 x = 4294967295 := by
  have hz : fLe x fZero = false := fLe_eq_false_of_ge h (by decide)
  simp [f2u32, fGe, (fLe_notNaN h).2, hz, h]

/-- Between the two ends `f2u32` truncates. -/
theorem f2u32_of_between {x : F32} (h : fLt fZero x = true) (h' : fLt x fTwo32 = true) :
    f2u32 x = fUnits x / 2 ^ 149 := by
  simp only [f2u32, fGe, (fLt_notNaN h).2, fLe_eq_false_of_fLt h, fLe_eq_false_of_fLt h', Bool.or_self,
    Bool.false_eq_true, if_false]

/-! ### `f2i32` -/

theorem f2i32_of_nan {x : F32} (h : fIsNaN x = true) : f2i32 x = 0 := by simp [f2i32, h]

theorem f2i32_of_ge_two31 {x : F32} (h : fLe fTwo31 x = true) : f2i32 x = 2147483647 := by
  simp [f2i32, fGe, (fLe_notNaN h).2, h]

theorem f2i32_of_le_minusTwo31 {x : F32} (h : fLe x fMinusTwo31 = true) : f2i32 x = -2147483648 := by
  have hg : fLe fTwo31 x = false := fLe_eq_false_of_le h (by decide)
  simp [f2i32, fGe, (fLe_notNaN h).1, hg, h]

/-- Between the two ends `f2i32` truncates toward zero. -/
theorem f2i32_of_between {x : F32} (h : fLt fMinusTwo31 x = true) (h' : fLt x fTwo31 = true) :
    f2i32 x = if fSign x then -((fUnits x / 2 ^ 149 : Nat) : Int) else (fUnits x / 2 ^ 149 : Nat) := by
  simp only [f2i32, fGe, (fLt_notNaN h).2, fLe_eq_false_of_fLt h, fLe_eq_false_of_fLt h',
    Bool.false_eq_true, if_false]

/-! ### `u2f` -/

theorem u2f_nearest (n : Nat) : ∃ m, NearestMag (n * 2 ^ 149) 1 m ∧ u2f n = fPack false m :=
  ⟨_, roundMag_nearest _ Nat.one_pos, rfl⟩

/-- A whole number up to 2^24 is a pattern, so the rounding keeps it (R13). -/
theorem u2f_exact {n : Nat} (h : n ≤ 2 ^ 24) :
    fUnits (u2f n) = n * 2 ^ 149 ∧ fSign (u2f n) = false ∧ fIsFinite (u2f n) = true := by
  obtain ⟨m, hm, hu⟩ := magUnits_ofNat h
  have hr : u2f n = fPack false m := by
    rw [u2f, fOfRatio, roundMag_exact Nat.one_pos (le_of_lt hm) (by rw [hu, Nat.mul_one])]
  have hlt : m < 2 ^ 31 := lt_trans hm (by decide)
  rw [hr, fUnits, fMag_fPack _ hlt]
  exact ⟨hu, fSign_fPack _ hlt, fIsFinite_fPack _ hm⟩

theorem fInt_u2f {n : Nat} (h : n ≤ 2 ^ 24) : fInt (u2f n) = (n * 2 ^ 149 : Nat) := by
  obtain ⟨hu, hs, -⟩ := u2f_exact h
  rw [fInt, hs, hu, if_neg Bool.false_ne_true]

theorem fIsNaN_u2f {n : Nat} (h : n ≤ 2 ^ 24) : fIsNaN (u2f n) = false :=
  not_nan_of_finite (u2f_exact h).2.2

theorem fLt_fZero_u2f {n : Nat} (h : n ≤ 2 ^ 24) (hp : 0 < n) : fLt fZero (u2f n) = true := by
  have h0 : fInt fZero = 0 := by decide
  rw [fLt_iff (by decide) (fIsNaN_u2f h), h0, fInt_u2f h]
  exact_mod_cast Nat.mul_pos hp (Nat.two_pow_pos 149)

/-- Back from `u2f`, where it is exact. -/
theorem f2u32_u2f {n : Nat} (h : n ≤ 2 ^ 24) : f2u32 (u2f n) = n := by
  rcases Nat.eq_zero_or_pos n with rfl | hp
  · exact f2u32_of_le_zero (by decide)
  · have hlt : fLt (u2f n) fTwo32 = true := by
      have hT : fInt fTwo32 = (2 ^ 32 * 2 ^ 149 : Nat) := by decide
      rw [fLt_iff (fIsNaN_u2f h) (by decide), hT, fInt_u2f h]
      exact_mod_cast Nat.mul_lt_mul_of_pos_right (by omega) (Nat.two_pow_pos 149)
    rw [f2u32_of_between (fLt_fZero_u2f h hp) hlt, (u2f_exact h).1,
      Nat.mul_div_cancel _ (Nat.two_pow_pos 149)]

/-! ### Clamps -/

theorem clampf_of_nan {x : F32} (lo hi : F32) (h : fIsNaN x = true) : clampf x lo hi = lo := by
  simp [clampf, h]

theorem clampf_of_not_nan {x : F32} (lo hi : F32) (h : fIsNaN x = false) :
    clampf x lo hi = if fLt x lo then lo else if fLt hi x then hi else x := by
  rw [clampf, if_neg (by simp [h])]
  rfl

/-- An integer within the bounds is kept. -/
theorem sati_of_mem {n lo hi : Nat} (h : lo ≤ n) (h' : n ≤ hi) : sati n lo hi = n := by
  rw [sati, if_neg (by omega), if_neg (by omega), Int.toNat_natCast]

/-- Settles O22: each clause is the lemma about its case. -/
theorem conversionsAreTotalAndExact : Obligations.ConversionsAreTotalAndExact :=
  ⟨fun _ h => ⟨f2u32_of_nan h, f2i32_of_nan h⟩, fun _ => f2u32_of_le_zero, fun _ => f2u32_of_ge_two32,
    fun _ => f2u32_of_between, fun _ => f2i32_of_ge_two31, fun _ => f2i32_of_le_minusTwo31,
    fun _ => f2i32_of_between, fun n _ => u2f_nearest n, fun _ => u2f_exact,
    fun _ => clampf_of_nan, fun _ => clampf_of_not_nan, fun _ _ _ _ => rfl⟩

end Sys2Proof.Machine
end

section
/-! SUPPORT. Hard reset meets the invariants of R42 (R300): a unit of each class in its hard-reset value
is within its bounds in every legal configuration, and so is the state made of such units. -/

namespace Sys2Proof.Machine

/-! ### What a legal configuration says of its sizes (R9) -/

theorem caps_of_configLegal {c : Config} (h : configLegal c = true) :
    ∀ cap ∈ [c.capDly, c.capCmb, c.capApf, c.capRevCb0, c.capRevCb1, c.capRevCb2, c.capRevCb3,
        c.capRevAp0, c.capRevAp1, c.capRevAp2, c.capPha, c.capVib, c.capPsh],
      1 ≤ cap ∧ cap ≤ 2 ^ 24 := by
  simp only [configLegal, capsLegal, capLegal, Bool.and_eq_true, decide_eq_true_eq] at h
  simp only [List.forall_mem_cons]
  simp_all

theorem fLe_qMin_qMax {c : Config} (h : configLegal c = true) : fLe c.qMin c.qMax = true := by
  simp only [configLegal, rangesLegal, Bool.and_eq_true] at h
  obtain ⟨-, ⟨⟨⟨⟨-, hq⟩, -⟩, -⟩, -⟩, -⟩ := h
  exact hq

/-! ### One unit of each class -/

theorem inRange_unit_fZero : inRange fZero fOne fZero = true := by decide

theorem inRange_unit_fOne : inRange fZero fOne fOne = true := by decide

theorem env_hardReset_inRange : Env.InRange Env.hardReset :=
  ⟨inRange_unit_fOne, inRange_unit_fOne, inRange_unit_fOne, inRange_unit_fOne, inRange_unit_fZero⟩

theorem line_hardReset_ok {cap : Nat} (gain : F32) (h : 1 ≤ cap ∧ cap ≤ 2 ^ 24) :
    Line.Ok cap (Line.hardReset cap gain) :=
  ⟨h.1, le_refl cap, h.1, rfl⟩

section
variable {c : Config} (h : configLegal c = true)
include h

theorem dly_hardReset_ok : Dly.Ok c Dly.hardReset :=
  ⟨(caps_of_configLegal h c.capDly (by simp)).1, Nat.zero_le _, rfl⟩

theorem rev_hardReset_ok : Rev.Ok c (Rev.hardReset c) := by
  have hcap := caps_of_configLegal h
  exact ⟨line_hardReset_ok _ (hcap _ (by simp)), line_hardReset_ok _ (hcap _ (by simp)),
    line_hardReset_ok _ (hcap _ (by simp)), line_hardReset_ok _ (hcap _ (by simp)),
    line_hardReset_ok _ (hcap _ (by simp)), line_hardReset_ok _ (hcap _ (by simp)),
    line_hardReset_ok _ (hcap _ (by simp))⟩

theorem pha_hardReset_ok : Pha.Ok c (Pha.hardReset c) := by
  refine ⟨List.length_replicate, fun st hst => ?_⟩
  rw [List.eq_of_mem_replicate hst]
  exact ⟨(caps_of_configLegal h c.capPha (by simp)).1, rfl⟩

theorem vib_hardReset_ok : Vib.Ok c Vib.hardReset :=
  ⟨Nat.zero_le _, Nat.zero_le _, (caps_of_configLegal h c.capVib (by simp)).1, rfl⟩

theorem psh_hardReset_ok : Psh.Ok c Psh.hardReset :=
  ⟨(caps_of_configLegal h c.capPsh (by simp)).1, rfl⟩

theorem flt_hardReset_inRange :
    inRange fZero fOne (Flt.hardReset c).cutoff = true
      ∧ inRange c.qMin c.qMax (Flt.hardReset c).res = true := by
  have hq := fLe_qMin_qMax h
  refine ⟨inRange_unit_fOne, ?_⟩
  rw [Flt.hardReset, inRange, fLe_refl (fLe_notNaN hq).1, hq, Bool.and_self]

theorem psh_hardReset_inRange : Psh.InRange c Psh.hardReset := by
  obtain ⟨hpos, hle⟩ := caps_of_configLegal h c.capPsh (by simp)
  exact ⟨by decide, inRange_unit_fZero, by decide, fLt_fZero_u2f hle hpos⟩

end

/-- At `TIME` 1.0 every limit is the capacity (R35, R233). -/
theorem revLimit_fOne {cap : Nat} (h : 1 ≤ cap ∧ cap ≤ 2 ^ 24) : revLimit fOne cap = cap := by
  rw [revLimit, fOne_fMul (u2f_exact h.2).2.2, f2u32_u2f h.2, sati_of_mem h.1 (le_refl cap)]

/-- The reset limits of a reverb are those of its reset `TIME`. -/
theorem setRevTime_hardReset {c : Config} (h : configLegal c = true) :
    setRevTime c (Rev.hardReset c) (Rev.hardReset c).time = Rev.hardReset c := by
  have hlim := fun cap hm => revLimit_fOne (caps_of_configLegal h cap hm)
  simp [setRevTime, retime, Rev.hardReset, Line.hardReset, hlim]

/-- The reset coefficients of a filter are those of its reset parameters, in the configuration `T`. -/
theorem redesign_hardReset_test :
    redesign Config.test (Flt.hardReset Config.test) = Flt.hardReset Config.test := by decide +kernel

/-! ### The state -/

@[simp] theorem powerOn_cfg (c : Config) (k : Nat) : (State.powerOn c k).cfg = c := rfl

theorem powerOn_populated (c : Config) (k : Nat) : (State.powerOn c k).Populated := by
  simp [State.powerOn, State.Populated]

/-- Hard reset meets the index invariants in every legal configuration. -/
theorem powerOn_wf {c : Config} (h : configLegal c = true) (k : Nat) : (State.powerOn c k).Wf := by
  have hcap := caps_of_configLegal h
  refine ⟨h, powerOn_populated c k, powerOn_blocksOk c k, .inl ⟨rfl, rfl⟩, fun d hd => ?dly,
    fun u hu => ?cmb, fun u hu => ?apf, fun r hr => ?rev, fun p hp => ?pha, fun v hv => ?vib,
    fun u hu => ?psh⟩
  case dly => exact List.eq_of_mem_replicate hd ▸ dly_hardReset_ok h
  case cmb => exact List.eq_of_mem_replicate hu ▸ line_hardReset_ok _ (hcap c.capCmb (by simp))
  case apf => exact List.eq_of_mem_replicate hu ▸ line_hardReset_ok _ (hcap c.capApf (by simp))
  case rev => exact List.eq_of_mem_replicate hr ▸ rev_hardReset_ok h
  case pha => exact List.eq_of_mem_replicate hp ▸ pha_hardReset_ok h
  case vib => exact List.eq_of_mem_replicate hv ▸ vib_hardReset_ok h
  case psh => exact List.eq_of_mem_replicate hu ▸ psh_hardReset_ok h

theorem powerOn_paramsInRange {c : Config} (h : configLegal c = true) (k : Nat) :
    (State.powerOn c k).ParamsInRange :=
  ⟨fun _ hf => List.eq_of_mem_replicate hf ▸ flt_hardReset_inRange h,
    fun _ hr => List.eq_of_mem_replicate hr ▸ inRange_unit_fOne,
    fun _ hp => List.eq_of_mem_replicate hp ▸ inRange_unit_fZero,
    fun _ hv => List.eq_of_mem_replicate hv ▸ inRange_unit_fZero,
    fun _ ht => List.eq_of_mem_replicate ht ▸ inRange_unit_fZero⟩

theorem powerOn_env_inRange (c : Config) (k : Nat) : ∀ e ∈ (State.powerOn c k).env, Env.InRange e :=
  fun _ he => List.eq_of_mem_replicate he ▸ env_hardReset_inRange

theorem powerOn_psh_inRange {c : Config} (h : configLegal c = true) (k : Nat) :
    ∀ u ∈ (State.powerOn c k).psh, Psh.InRange c u :=
  fun _ hu => List.eq_of_mem_replicate hu ▸ psh_hardReset_inRange h

/-- The coefficient invariant holds after hard reset wherever the design rule gives the reset
coefficients for the reset parameters (R171). -/
theorem powerOn_designed {c : Config} (h : configLegal c = true)
    (hflt : redesign c (Flt.hardReset c) = Flt.hardReset c) (k : Nat) : (State.powerOn c k).Designed :=
  ⟨fun _ hf => by rw [List.eq_of_mem_replicate hf, powerOn_cfg, hflt],
    fun _ hr => by rw [List.eq_of_mem_replicate hr, powerOn_cfg, setRevTime_hardReset h]⟩

theorem configLegal_test : configLegal Config.test = true := by decide

/-- Settles O11: the reset state is hard reset in the configuration `T`, which is legal. -/
theorem resetStateMeetsTheInvariants : Obligations.ResetStateMeetsTheInvariants :=
  ⟨powerOn_wf configLegal_test 0, powerOn_paramsInRange configLegal_test 0,
    powerOn_designed configLegal_test redesign_hardReset_test 0, powerOn_env_inRange Config.test 0,
    powerOn_psh_inRange configLegal_test 0, rfl, rfl⟩

end Sys2Proof.Machine
end

section
/-! SUPPORT. The commands by form. The eleven unit classes are one family, indexed by `UnitClass`: what
holds of every class is then stated once, over the class, and a command is one of five forms (`PROC`,
`PROCI`, `RESET`, `SETP`, `GETP`; R93 to R97) applied to a class, or one of the few outside them. -/

namespace Sys2Proof.Machine

/-! ### The unit classes as one family -/

/-- The registers and buffers of one unit of a class. -/
abbrev UnitOf (k : UnitClass) : Type :=
  match k with
  | .osc => Osc
  | .flt => Flt
  | .env => Env
  | .dly => Dly
  | .cmb => Line
  | .apf => Line
  | .rev => Rev
  | .pha => Pha
  | .vib => Vib
  | .trm => Trm
  | .psh => Psh

/-- The units of one class. -/
def State.unitsOf (s : State) (k : UnitClass) : List (UnitOf k) :=
  match k with
  | .osc => s.osc
  | .flt => s.flt
  | .env => s.env
  | .dly => s.dly
  | .cmb => s.cmb
  | .apf => s.apf
  | .rev => s.rev
  | .pha => s.pha
  | .vib => s.vib
  | .trm => s.trm
  | .psh => s.psh

/-- The one place where a unit of the class is written. -/
def putUnit (k : UnitClass) : State → Nat → UnitOf k → State :=
  match k with
  | .osc => putOsc
  | .flt => putFlt
  | .env => putEnv
  | .dly => putDly
  | .cmb => putCmb
  | .apf => putApf
  | .rev => putRev
  | .pha => putPha
  | .vib => putVib
  | .trm => putTrm
  | .psh => putPsh

/-- The sample rule of the class. -/
def ruleOf (s : State) (k : UnitClass) : SampleRule (UnitOf k) :=
  match k with
  | .osc => stepOsc s.cfg s.octmul s.gpm
  | .flt => stepFlt
  | .env => scaleEnv
  | .dly => stepDly s.cfg
  | .cmb => stepCmb s.cfg
  | .apf => stepApf s.cfg
  | .rev => stepRev s.cfg
  | .pha => stepPha s.cfg
  | .vib => stepVib s.cfg
  | .trm => stepTrm s.cfg
  | .psh => stepPsh s.cfg

/-- What a block operation does to the unit before the first sample: the ramp of the vibrato (R250). -/
def startOf (k : UnitClass) : UnitOf k → UnitOf k :=
  match k with
  | .osc => id
  | .flt => id
  | .env => id
  | .dly => id
  | .cmb => id
  | .apf => id
  | .rev => id
  | .pha => id
  | .vib => rampVib
  | .trm => id
  | .psh => id

/-- `RESET` on one unit (R122). -/
def clearOf (k : UnitClass) : UnitOf k → UnitOf k :=
  match k with
  | .osc => fun o => { o with phase := 0#32 }
  | .flt => fun f => { f with w0 := fZero, w1 := fZero }
  | .env => fun e => { e with phase := .release, control := fZero, active := false }
  | .dly => fun d => { d with wcur := 0, buf := [] }
  | .cmb => clearLine
  | .apf => clearLine
  | .rev => clearRev
  | .pha => clearPha
  | .vib => fun v => { v with intenCur := 0, wcur := 0, buf := [] }
  | .trm => fun t => { t with lfoPhase := 0#32 }
  | .psh => fun u => { u with wcur := 0, rpos := fZero, buf := [] }

/-- `SETP` on one unit (R123). -/
def setOf (c : Config) (k : UnitClass) : UnitOf k → Nat → Word32 → Option (UnitOf k) :=
  match k with
  | .osc => setOsc
  | .flt => setFlt c
  | .env => setEnv
  | .dly => setDly c
  | .cmb => setLine c.capCmb
  | .apf => setLine c.capApf
  | .rev => setRev c
  | .pha => setPha
  | .vib => setVib c
  | .trm => setTrm
  | .psh => setPsh c

/-- `GETP` on one unit (R124). -/
def getOf (k : UnitClass) : UnitOf k → Nat → Option Word32 :=
  match k with
  | .osc => getOsc
  | .flt => getFlt
  | .env => getEnv
  | .dly => getDly
  | .cmb => getLine
  | .apf => getLine
  | .rev => getRev
  | .pha => getPha
  | .vib => getVib
  | .trm => getTrm
  | .psh => getPsh

/-- Hard reset of one unit (R300). -/
def hardResetOf (c : Config) (k : UnitClass) : UnitOf k :=
  match k with
  | .osc => Osc.hardReset
  | .flt => Flt.hardReset c
  | .env => Env.hardReset
  | .dly => Dly.hardReset
  | .cmb => Line.hardReset c.capCmb fZero
  | .apf => Line.hardReset c.capApf fZero
  | .rev => Rev.hardReset c
  | .pha => Pha.hardReset c
  | .vib => Vib.hardReset
  | .trm => Trm.hardReset
  | .psh => Psh.hardReset

/-! ### What writing a unit and hard reset do to the classes -/

@[simp] theorem putUnit_unitsOf (k : UnitClass) (s : State) (i : Nat) (u : UnitOf k) :
    (putUnit k s i u).unitsOf k = (s.unitsOf k).set i u := by cases k <;> rfl

theorem putUnit_unitsOf_other {k k' : UnitClass} (s : State) (i : Nat) (u : UnitOf k) (h : k' ≠ k) :
    (putUnit k s i u).unitsOf k' = s.unitsOf k' := by
  cases k <;> cases k' <;> try rfl
  all_goals exact absurd rfl h

section
variable (k : UnitClass) (s : State) (i : Nat) (u : UnitOf k)

@[simp] theorem putUnit_cfg : (putUnit k s i u).cfg = s.cfg := by cases k <;> rfl
@[simp] theorem putUnit_host : (putUnit k s i u).host = s.host := by cases k <;> rfl
@[simp] theorem putUnit_cmdPort : (putUnit k s i u).cmdPort = s.cmdPort := by cases k <;> rfl
@[simp] theorem putUnit_hostData : (putUnit k s i u).hostData = s.hostData := by cases k <;> rfl
@[simp] theorem putUnit_resets : (putUnit k s i u).resets = s.resets := by cases k <;> rfl
@[simp] theorem putUnit_blocks : (putUnit k s i u).blocks = s.blocks := by cases k <;> rfl
@[simp] theorem putUnit_octmul : (putUnit k s i u).octmul = s.octmul := by cases k <;> rfl
@[simp] theorem putUnit_gpm : (putUnit k s i u).gpm = s.gpm := by cases k <;> rfl
@[simp] theorem putUnit_status : (putUnit k s i u).status = s.status := by cases k <;> rfl
@[simp] theorem putUnit_faultcw : (putUnit k s i u).faultcw = s.faultcw := by cases k <;> rfl
@[simp] theorem putUnit_resp : (putUnit k s i u).resp = s.resp := by cases k <;> rfl

end

@[simp] theorem raise_unitsOf (k : UnitClass) (c : Cause) (s : State) :
    (raise c s).unitsOf k = s.unitsOf k := by cases k <;> rfl

@[simp] theorem writeSample_unitsOf (k : UnitClass) (s : State) (i n : Nat) (v : F32) :
    (writeSample s i n v).unitsOf k = s.unitsOf k := by cases k <;> rfl

@[simp] theorem hardReset_unitsOf (k : UnitClass) (s : State) :
    (hardReset s).unitsOf k = List.replicate (instances s.cfg k) (hardResetOf s.cfg k) := by
  cases k <;> rfl

/-! ### The forms of the commands -/

/-- `<CLS>.RESET i` of a class (R95). -/
def resetOf (k : UnitClass) (i : Nat) : Instr :=
  match k with
  | .osc => .oscReset i
  | .flt => .fltReset i
  | .env => .envReset i
  | .dly => .dlyReset i
  | .cmb => .cmbReset i
  | .apf => .apfReset i
  | .rev => .revReset i
  | .pha => .phaReset i
  | .vib => .vibReset i
  | .trm => .trmReset i
  | .psh => .pshReset i

/-- `<CLS>.GETP i, reg` of a class (R97). -/
def getpOf (k : UnitClass) (i reg : Nat) : Instr :=
  match k with
  | .osc => .oscGetp i reg
  | .flt => .fltGetp i reg
  | .env => .envGetp i reg
  | .dly => .dlyGetp i reg
  | .cmb => .cmbGetp i reg
  | .apf => .apfGetp i reg
  | .rev => .revGetp i reg
  | .pha => .phaGetp i reg
  | .vib => .vibGetp i reg
  | .trm => .trmGetp i reg
  | .psh => .pshGetp i reg

/-- Every command of R100 by its form: what holds of each form over every class, and of the commands
outside the forms, holds of every command. -/
theorem instr_byForm {motive : Instr → Prop} (sysNop : motive .sysNop)
    (sysSetp : ∀ reg v, motive (.sysSetp reg v)) (sysGetp : ∀ reg, motive (.sysGetp reg))
    (bufClr : ∀ bD, motive (.bufClr bD)) (bufCpy : ∀ bD bS, motive (.bufCpy bD bS))
    (bufAcc : ∀ bD bS, motive (.bufAcc bD bS)) (envStart : ∀ i, motive (.envStart i))
    (envRel : ∀ i, motive (.envRel i)) (envStep : ∀ i, motive (.envStep i))
    (proc : ∀ k i bD bS bM, motive (procOf k i bD bS bM))
    (proci : ∀ k i bX bM, motive (prociOf k i bX bM)) (reset : ∀ k i, motive (resetOf k i))
    (setp : ∀ k i reg v, motive (setpOf k i reg v)) (getp : ∀ k i reg, motive (getpOf k i reg))
    (i : Instr) : motive i := by
  cases i with
  | sysNop => exact sysNop
  | sysSetp reg v => exact sysSetp reg v
  | sysGetp reg => exact sysGetp reg
  | bufClr bD => exact bufClr bD
  | bufCpy bD bS => exact bufCpy bD bS
  | bufAcc bD bS => exact bufAcc bD bS
  | envStart i => exact envStart i
  | envRel i => exact envRel i
  | envStep i => exact envStep i
  | oscProc i bD bS => exact proc .osc i bD bS bS
  | oscProci i bX => exact proci .osc i bX bX
  | oscReset i => exact reset .osc i
  | oscSetp i reg v => exact setp .osc i reg v
  | oscGetp i reg => exact getp .osc i reg
  | fltProc i bD bS => exact proc .flt i bD bS bS
  | fltProci i bX => exact proci .flt i bX bX
  | fltReset i => exact reset .flt i
  | fltSetp i reg v => exact setp .flt i reg v
  | fltGetp i reg => exact getp .flt i reg
  | envProc i bD bS => exact proc .env i bD bS bS
  | envProci i bX => exact proci .env i bX bX
  | envReset i => exact reset .env i
  | envSetp i reg v => exact setp .env i reg v
  | envGetp i reg => exact getp .env i reg
  | dlyProc i bD bS => exact proc .dly i bD bS bS
  | dlyProci i bX => exact proci .dly i bX bX
  | dlyReset i => exact reset .dly i
  | dlySetp i reg v => exact setp .dly i reg v
  | dlyGetp i reg => exact getp .dly i reg
  | cmbProc i bD bS => exact proc .cmb i bD bS bS
  | cmbProci i bX => exact proci .cmb i bX bX
  | cmbReset i => exact reset .cmb i
  | cmbSetp i reg v => exact setp .cmb i reg v
  | cmbGetp i reg => exact getp .cmb i reg
  | apfProc i bD bS => exact proc .apf i bD bS bS
  | apfProci i bX => exact proci .apf i bX bX
  | apfReset i => exact reset .apf i
  | apfSetp i reg v => exact setp .apf i reg v
  | apfGetp i reg => exact getp .apf i reg
  | revProc i bD bS => exact proc .rev i bD bS bS
  | revProci i bX => exact proci .rev i bX bX
  | revReset i => exact reset .rev i
  | revSetp i reg v => exact setp .rev i reg v
  | revGetp i reg => exact getp .rev i reg
  | pshProc i bD bS => exact proc .psh i bD bS bS
  | pshProci i bX => exact proci .psh i bX bX
  | pshReset i => exact reset .psh i
  | pshSetp i reg v => exact setp .psh i reg v
  | pshGetp i reg => exact getp .psh i reg
  | phaProc i bD bS bM => exact proc .pha i bD bS bM
  | phaProci i bX bM => exact proci .pha i bX bM
  | phaReset i => exact reset .pha i
  | phaSetp i reg v => exact setp .pha i reg v
  | phaGetp i reg => exact getp .pha i reg
  | vibProc i bD bS bM => exact proc .vib i bD bS bM
  | vibProci i bX bM => exact proci .vib i bX bM
  | vibReset i => exact reset .vib i
  | vibSetp i reg v => exact setp .vib i reg v
  | vibGetp i reg => exact getp .vib i reg
  | trmProc i bD bS bM => exact proc .trm i bD bS bM
  | trmProci i bX bM => exact proci .trm i bX bM
  | trmReset i => exact reset .trm i
  | trmSetp i reg v => exact setp .trm i reg v
  | trmGetp i reg => exact getp .trm i reg

/-! ### What a form executes -/

/-- The blocks a block operation names besides its destination: `bs`, and then the modulation block,
where the class has one (R93, R94). -/
def otherBlocks (k : UnitClass) (bs : List Nat) (bM : Nat) : List Nat :=
  bif usesModulation k then bs ++ [bM] else bs

/-- A block operation of a class: the checks on its unit and on its blocks, then the sample rule over
the block (R104, R120). -/
def blockUnit (k : UnitClass) (i dst : Nat) (others : List Nat) (bS bM : Nat) (s : State) : Out :=
  withInstance (s.unitsOf k) i s fun u =>
    withBlocks (dst :: others) s (withoutAlias dst others s
      (processBlock (ruleOf s k) (fun s' u' => putUnit k s' i u') dst bS bM (startOf k u) s))

/-- `PROC` is a block operation with a source; which blocks its rule is given depends on the class, the
oscillator's reading its own destination (R143). -/
theorem exec_procOf (k : UnitClass) (i bD bS bM : Nat) (s : State) :
    ∃ src md, exec (procOf k i bD bS bM) s
      = blockUnit k i bD (otherBlocks k [bS] bM) src md s := by
  cases k <;> exact ⟨_, _, rfl⟩

theorem exec_prociOf (k : UnitClass) (i bX bM : Nat) (s : State) :
    ∃ src md, exec (prociOf k i bX bM) s = blockUnit k i bX (otherBlocks k [] bM) src md s := by
  cases k <;> exact ⟨_, _, rfl⟩

theorem exec_resetOf (k : UnitClass) (i : Nat) (s : State) :
    exec (resetOf k i) s = updateUnit (s.unitsOf k) (putUnit k) (clearOf k) i s := by
  cases k <;> rfl

theorem exec_setpOf (k : UnitClass) (i reg : Nat) (v : Word32) (s : State) :
    exec (setpOf k i reg v) s
      = setpUnit (s.unitsOf k) (putUnit k) (fun u => setOf s.cfg k u reg v) i s := by
  cases k <;> rfl

theorem exec_getpOf (k : UnitClass) (i reg : Nat) (s : State) :
    exec (getpOf k i reg) s = getpUnit (s.unitsOf k) (fun u => getOf k u reg) i s := by
  cases k <;> rfl

end Sys2Proof.Machine
end

section
/-! SUPPORT. The register files: which register numbers each class has, what `RESET`, `SETP` and `GETP`
answer for a unit that exists, and the statements about them (R122 to R127). -/

namespace Sys2Proof.Machine

/-! ### Which registers there are (R28 to R39) -/

theorem setSys_eq_none_iff {s : State} {reg : Nat} {v : Word32} : setSys s reg v = none ↔ 2 ≤ reg := by
  match reg with
  | 0 | 1 => simp [setSys]
  | n + 2 => simp [setSys]

theorem getSys_eq_none_iff {s : State} {reg : Nat} : getSys s reg = none ↔ 5 ≤ reg := by
  match reg with
  | 0 | 1 | 2 | 3 | 4 => simp [getSys]
  | n + 5 => simp [getSys]

theorem setOsc_eq_none_iff {o : Osc} {reg : Nat} {v : Word32} : setOsc o reg v = none ↔ 6 ≤ reg := by
  match reg with
  | 0 | 1 | 2 | 3 | 4 | 5 => simp [setOsc]
  | n + 6 => simp [setOsc]

theorem getOsc_eq_none_iff {o : Osc} {reg : Nat} : getOsc o reg = none ↔ 7 ≤ reg := by
  match reg with
  | 0 | 1 | 2 | 3 | 4 | 5 | 6 => simp [getOsc]
  | n + 7 => simp [getOsc]

theorem setFlt_eq_none_iff {c : Config} {f : Flt} {reg : Nat} {v : Word32} :
    setFlt c f reg v = none ↔ 3 ≤ reg := by
  match reg with
  | 0 | 1 | 2 => simp [setFlt]
  | n + 3 => simp [setFlt]

theorem getFlt_eq_none_iff {f : Flt} {reg : Nat} : getFlt f reg = none ↔ 10 ≤ reg := by
  match reg with
  | 0 | 1 | 2 | 3 | 4 | 5 | 6 | 7 | 8 | 9 => simp [getFlt]
  | n + 10 => simp [getFlt]

theorem setEnv_eq_none_iff {e : Env} {reg : Nat} {v : Word32} : setEnv e reg v = none ↔ 4 ≤ reg := by
  match reg with
  | 0 | 1 | 2 | 3 => simp [setEnv]
  | n + 4 => simp [setEnv]

theorem getEnv_eq_none_iff {e : Env} {reg : Nat} : getEnv e reg = none ↔ 7 ≤ reg := by
  match reg with
  | 0 | 1 | 2 | 3 | 4 | 5 | 6 => simp [getEnv]
  | n + 7 => simp [getEnv]

theorem setDly_eq_none_iff {c : Config} {d : Dly} {reg : Nat} {v : Word32} :
    setDly c d reg v = none ↔ 4 ≤ reg := by
  match reg with
  | 0 | 1 | 2 | 3 => simp [setDly]
  | n + 4 => simp [setDly]

theorem getDly_eq_none_iff {d : Dly} {reg : Nat} : getDly d reg = none ↔ 5 ≤ reg := by
  match reg with
  | 0 | 1 | 2 | 3 | 4 => simp [getDly]
  | n + 5 => simp [getDly]

theorem setLine_eq_none_iff {cap : Nat} {u : Line} {reg : Nat} {v : Word32} :
    setLine cap u reg v = none ↔ 2 ≤ reg := by
  match reg with
  | 0 | 1 => simp [setLine]
  | n + 2 => simp [setLine]

theorem getLine_eq_none_iff {u : Line} {reg : Nat} : getLine u reg = none ↔ 3 ≤ reg := by
  match reg with
  | 0 | 1 | 2 => simp [getLine]
  | n + 3 => simp [getLine]

theorem setRev_eq_none_iff {c : Config} {r : Rev} {reg : Nat} {v : Word32} :
    setRev c r reg v = none ↔ 9 ≤ reg := by
  match reg with
  | 0 | 1 | 2 | 3 | 4 | 5 | 6 | 7 | 8 => simp [setRev]
  | n + 9 => simp [setRev]

/-- The register file of a reverb as a list, in register order (R35). -/
def revRegisterList (r : Rev) : List Word32 :=
  [r.level, r.time, r.cb0.gain, r.cb1.gain, r.cb2.gain, r.cb3.gain, r.ap0.gain, r.ap1.gain, r.ap2.gain,
    countWord r.cb0.limit, countWord r.cb1.limit, countWord r.cb2.limit, countWord r.cb3.limit,
    countWord r.ap0.limit, countWord r.ap1.limit, countWord r.ap2.limit, countWord r.cb0.cur,
    countWord r.cb1.cur, countWord r.cb2.cur, countWord r.cb3.cur, countWord r.ap0.cur,
    countWord r.ap1.cur, countWord r.ap2.cur]

theorem getRev_eq_getElem? (r : Rev) (reg : Nat) : getRev r reg = (revRegisterList r)[reg]? := by
  match reg with
  | 0 | 1 | 2 | 3 | 4 | 5 | 6 | 7 | 8 | 9 | 10 | 11 | 12 | 13 | 14 | 15 | 16 | 17 | 18 | 19 | 20 | 21
  | 22 => rfl
  | n + 23 => rfl

theorem getRev_eq_none_iff {r : Rev} {reg : Nat} : getRev r reg = none ↔ 23 ≤ reg := by
  rw [getRev_eq_getElem?, List.getElem?_eq_none_iff]
  rfl

theorem setPha_eq_none_iff {ph : Pha} {reg : Nat} {v : Word32} : setPha ph reg v = none ↔ 2 ≤ reg := by
  match reg with
  | 0 | 1 => simp [setPha]
  | n + 2 => simp [setPha]

theorem getPha_eq_none_iff {ph : Pha} {reg : Nat} :
    getPha ph reg = none ↔ 2 + ph.stages.length ≤ reg := by
  match reg with
  | 0 => simp [getPha]
  | 1 => simp [getPha]; omega
  | k + 2 => simp [getPha]; omega

theorem setVib_eq_none_iff {c : Config} {v : Vib} {reg : Nat} {w : Word32} :
    setVib c v reg w = none ↔ 2 ≤ reg := by
  match reg with
  | 0 | 1 => simp [setVib]
  | n + 2 => simp [setVib]

theorem getVib_eq_none_iff {v : Vib} {reg : Nat} : getVib v reg = none ↔ 4 ≤ reg := by
  match reg with
  | 0 | 1 | 2 | 3 => simp [getVib]
  | n + 4 => simp [getVib]

theorem setTrm_eq_none_iff {t : Trm} {reg : Nat} {v : Word32} : setTrm t reg v = none ↔ 4 ≤ reg := by
  match reg with
  | 0 | 1 | 2 | 3 => simp [setTrm]
  | n + 4 => simp [setTrm]

theorem getTrm_eq_none_iff {t : Trm} {reg : Nat} : getTrm t reg = none ↔ 5 ≤ reg := by
  match reg with
  | 0 | 1 | 2 | 3 | 4 => simp [getTrm]
  | n + 5 => simp [getTrm]

theorem setPsh_eq_none_iff {c : Config} {u : Psh} {reg : Nat} {v : Word32} :
    setPsh c u reg v = none ↔ 3 ≤ reg := by
  match reg with
  | 0 | 1 | 2 => simp [setPsh]
  | n + 3 => simp [setPsh]

theorem getPsh_eq_none_iff {u : Psh} {reg : Nat} : getPsh u reg = none ↔ 5 ≤ reg := by
  match reg with
  | 0 | 1 | 2 | 3 | 4 => simp [getPsh]
  | n + 5 => simp [getPsh]

/-! ### The command shapes on a unit that exists -/

section
variable {U : Type} {units : List U} {put : State → Nat → U → State} {i : Nat} {s : State} {u : U}

theorem updateUnit_some {f : U → U} (hu : units[i]? = some u) :
    updateUnit units put f i s = .next (put s i (f u)) := withInstance_some _ _ hu

theorem setpUnit_some {set : U → Option U} {u' : U} (hu : units[i]? = some u) (h : set u = some u') :
    setpUnit units put set i s = .next (put s i u') := by
  rw [setpUnit, withInstance_some _ _ hu, h, withRegister_some]

theorem setpUnit_none {set : U → Option U} (hu : units[i]? = some u) (h : set u = none) :
    setpUnit units put set i s = .next (raise .illegalRegister s) := by
  rw [setpUnit, withInstance_some _ _ hu, h, withRegister_none]

theorem getpUnit_some {get : U → Option Word32} {v : Word32} (hu : units[i]? = some u)
    (h : get u = some v) : getpUnit units get i s = .next (putResp s v) := by
  rw [getpUnit, withInstance_some _ _ hu, h, withRegister_some]

theorem getpUnit_none {get : U → Option Word32} (hu : units[i]? = some u) (h : get u = none) :
    getpUnit units get i s = .next (raise .illegalRegister s) := by
  rw [getpUnit, withInstance_some _ _ hu, h, withRegister_none]

end

/-! ### The fault and `SYS` -/

theorem statusFault_statusWord (c : Cause) : statusFault (statusWord c) = true := by
  cases c <;> decide

theorem statusCause_statusWord (c : Cause) : statusCause (statusWord c) = causeCode c := by
  cases c <;> decide

/-- Settles O12: `raise` is its definition, and each code fits the four bits of `CAUSE`. -/
theorem raiseWritesStatusAndFaultcw : Obligations.RaiseWritesStatusAndFaultcw := by
  refine fun c s => ⟨?_, statusFault_statusWord c, statusCause_statusWord c, rfl, rfl, rfl, rfl, rfl⟩
  rw [raise, statusWord, Nat.mul_comm]
  rfl

/-- Settles O25: each register by its number; past the last one the lookup gives none. -/
theorem sysCommands : Obligations.SysCommands := by
  refine fun s => ⟨rfl, fun _ => rfl, fun _ => rfl, fun reg v h => ?_, rfl, rfl, rfl, rfl, rfl,
    fun reg h => ?_⟩
  · exact congrArg (withRegister · s Host.Outcome.next) (setSys_eq_none_iff.2 h)
  · exact congrArg (withRegister · s fun v => .next (putResp s v)) (getSys_eq_none_iff.2 h)

/-! ### The register file of each class -/

/-- Settles O29: `RESET`, then `SETP` and `GETP` register by register. -/
theorem oscRegisters : Obligations.OscRegisters := fun _ _ _ ho =>
  ⟨updateUnit_some ho, fun _ => setpUnit_some ho rfl, fun _ => setpUnit_some ho rfl,
    fun _ => setpUnit_some ho rfl, fun _ => setpUnit_some ho rfl, fun _ => setpUnit_some ho rfl,
    fun _ => setpUnit_some ho rfl, fun _ _ h => setpUnit_none ho (setOsc_eq_none_iff.2 h),
    getpUnit_some ho rfl, getpUnit_some ho rfl, getpUnit_some ho rfl, getpUnit_some ho rfl,
    getpUnit_some ho rfl, getpUnit_some ho rfl, getpUnit_some ho rfl,
    fun _ h => getpUnit_none ho (getOsc_eq_none_iff.2 h)⟩

/-- Settles O34: each `SETP` is the change of its parameter and one redesign. -/
theorem fltRegisters : Obligations.FltRegisters := fun _ _ _ hf =>
  ⟨updateUnit_some hf, fun _ => setpUnit_some hf rfl, fun _ => setpUnit_some hf rfl,
    fun _ => setpUnit_some hf rfl, fun _ _ h => setpUnit_none hf (setFlt_eq_none_iff.2 h),
    getpUnit_some hf rfl, getpUnit_some hf rfl, getpUnit_some hf rfl, getpUnit_some hf rfl,
    getpUnit_some hf rfl, getpUnit_some hf rfl, getpUnit_some hf rfl, getpUnit_some hf rfl,
    getpUnit_some hf rfl, getpUnit_some hf rfl, fun _ h => getpUnit_none hf (getFlt_eq_none_iff.2 h)⟩

/-- Settles O38: `STEP` writes its unit and `RESP`; the others are of the common shapes. -/
theorem envRegisters : Obligations.EnvRegisters := fun _ _ _ he =>
  ⟨updateUnit_some he, updateUnit_some he, updateUnit_some he, withInstance_some _ _ he,
    fun _ => setpUnit_some he rfl, fun _ => setpUnit_some he rfl, fun _ => setpUnit_some he rfl,
    fun _ => setpUnit_some he rfl, fun _ _ h => setpUnit_none he (setEnv_eq_none_iff.2 h),
    getpUnit_some he rfl, getpUnit_some he rfl, getpUnit_some he rfl, getpUnit_some he rfl,
    getpUnit_some he rfl, getpUnit_some he rfl, getpUnit_some he rfl,
    fun _ h => getpUnit_none he (getEnv_eq_none_iff.2 h)⟩

/-- Settles O41: `RESET` leaves the empty buffer, which reads as +0.0 everywhere. -/
theorem dlyRegisters : Obligations.DlyRegisters := fun _ _ _ hd =>
  ⟨⟨_, updateUnit_some hd, rfl, wordOrZero_nil⟩, fun _ => setpUnit_some hd rfl,
    fun _ => setpUnit_some hd rfl, fun _ => setpUnit_some hd rfl, fun _ => setpUnit_some hd rfl,
    fun _ _ h => setpUnit_none hd (setDly_eq_none_iff.2 h), getpUnit_some hd rfl, getpUnit_some hd rfl,
    getpUnit_some hd rfl, getpUnit_some hd rfl, getpUnit_some hd rfl,
    fun _ h => getpUnit_none hd (getDly_eq_none_iff.2 h)⟩

/-- Settles O46: both classes have the register file of a `Line`. -/
theorem combAllpassRegisters : Obligations.CombAllpassRegisters :=
  ⟨fun _ _ _ hu =>
    ⟨⟨_, updateUnit_some hu, rfl, wordOrZero_nil⟩, fun _ => setpUnit_some hu rfl,
      fun _ => setpUnit_some hu rfl, fun _ _ h => setpUnit_none hu (setLine_eq_none_iff.2 h),
      getpUnit_some hu rfl, getpUnit_some hu rfl, getpUnit_some hu rfl,
      fun _ h => getpUnit_none hu (getLine_eq_none_iff.2 h)⟩,
    fun _ _ _ hu =>
    ⟨⟨_, updateUnit_some hu, rfl, wordOrZero_nil⟩, fun _ => setpUnit_some hu rfl,
      fun _ => setpUnit_some hu rfl, fun _ _ h => setpUnit_none hu (setLine_eq_none_iff.2 h),
      getpUnit_some hu rfl, getpUnit_some hu rfl, getpUnit_some hu rfl,
      fun _ h => getpUnit_none hu (getLine_eq_none_iff.2 h)⟩⟩

/-- Settles O49: `GETP` is the lookup in the list of the 23 registers. -/
theorem revRegisters : Obligations.RevRegisters := fun _ _ r hr =>
  ⟨updateUnit_some hr, fun _ => setpUnit_some hr rfl, fun _ => setpUnit_some hr rfl,
    fun _ => setpUnit_some hr rfl, fun _ => setpUnit_some hr rfl, fun _ => setpUnit_some hr rfl,
    fun _ => setpUnit_some hr rfl, fun _ => setpUnit_some hr rfl, fun _ => setpUnit_some hr rfl,
    fun _ => setpUnit_some hr rfl, fun _ _ h => setpUnit_none hr (setRev_eq_none_iff.2 h),
    fun reg _ h => getpUnit_some hr ((getRev_eq_getElem? r reg).trans h),
    fun _ h => getpUnit_none hr (getRev_eq_none_iff.2 h)⟩

/-- `PHA.RESET` leaves as many stages, each with its cursor at 0 and its buffer empty (R243). -/
theorem clearPha_stages {ph : Pha} {st : PhaStage} (h : st ∈ (clearPha ph).stages) :
    st.cur = 0 ∧ st.buf = [] := by
  obtain ⟨_, -, rfl⟩ := List.mem_map.1 h
  exact ⟨rfl, rfl⟩

/-- Settles O52: register `2 + k` is the cursor of stage `k`, where there is one. -/
theorem phaRegisters : Obligations.PhaRegisters := by
  refine fun s i ph hp hlen => ⟨⟨clearPha ph, updateUnit_some hp, rfl, List.length_map _,
      fun st hst => ?cleared⟩, fun _ => setpUnit_some hp rfl, fun _ => setpUnit_some hp rfl,
    fun _ _ h => setpUnit_none hp (setPha_eq_none_iff.2 h), getpUnit_some hp rfl, getpUnit_some hp rfl,
    fun k st hst => getpUnit_some hp ?cursor,
    fun _ h => getpUnit_none hp (getPha_eq_none_iff.2 (by rwa [hlen]))⟩
  case cleared =>
    obtain ⟨hcur, hbuf⟩ := clearPha_stages hst
    exact ⟨hcur, fun a => by rw [hbuf]; rfl⟩
  case cursor =>
    rw [Nat.add_comm, getPha, hst]
    rfl

/-- Settles O56: the two register files, each register by its number. -/
theorem vibTrmRegisters : Obligations.VibTrmRegisters :=
  ⟨fun _ _ _ hv =>
    ⟨⟨_, updateUnit_some hv, rfl, wordOrZero_nil⟩, fun _ => setpUnit_some hv rfl,
      fun _ => setpUnit_some hv rfl, fun _ _ h => setpUnit_none hv (setVib_eq_none_iff.2 h),
      getpUnit_some hv rfl, getpUnit_some hv rfl, getpUnit_some hv rfl, getpUnit_some hv rfl,
      fun _ h => getpUnit_none hv (getVib_eq_none_iff.2 h)⟩,
    fun _ _ _ ht =>
    ⟨updateUnit_some ht, fun _ => setpUnit_some ht rfl, fun _ => setpUnit_some ht rfl,
      fun _ => setpUnit_some ht rfl, fun _ => setpUnit_some ht rfl,
      fun _ _ h => setpUnit_none ht (setTrm_eq_none_iff.2 h), getpUnit_some ht rfl,
      getpUnit_some ht rfl, getpUnit_some ht rfl, getpUnit_some ht rfl, getpUnit_some ht rfl,
      fun _ h => getpUnit_none ht (getTrm_eq_none_iff.2 h)⟩⟩

/-- Settles O60: `RESET` leaves the empty buffer; each register by its number. -/
theorem pshRegisters : Obligations.PshRegisters := fun _ _ _ hu =>
  ⟨⟨_, updateUnit_some hu, rfl, wordOrZero_nil⟩, fun _ => setpUnit_some hu rfl,
    fun _ => setpUnit_some hu rfl, fun _ => setpUnit_some hu rfl,
    fun _ _ h => setpUnit_none hu (setPsh_eq_none_iff.2 h), getpUnit_some hu rfl, getpUnit_some hu rfl,
    getpUnit_some hu rfl, getpUnit_some hu rfl, getpUnit_some hu rfl,
    fun _ h => getpUnit_none hu (getPsh_eq_none_iff.2 h)⟩

end Sys2Proof.Machine
end

section
/-! SUPPORT. The decode checks decide what a command does (R103, R104, R280): each check of the model is
one entry of the table of checks, and a command that passes them all completes. -/

namespace Sys2Proof.Machine

/-! ### The index invariants, class by class -/

/-- The index invariant of one unit of a class (R42); three classes have no index. -/
def UnitOk (c : Config) (k : UnitClass) : UnitOf k → Prop :=
  match k with
  | .osc => fun _ => True
  | .flt => fun _ => True
  | .env => fun _ => True
  | .dly => Dly.Ok c
  | .cmb => Line.Ok c.capCmb
  | .apf => Line.Ok c.capApf
  | .rev => Rev.Ok c
  | .pha => Pha.Ok c
  | .vib => Vib.Ok c
  | .trm => fun _ => True
  | .psh => Psh.Ok c

theorem populated_iff {s : State} :
    s.Populated ↔ ∀ k, (s.unitsOf k).length = instances s.cfg k := by
  constructor
  · rintro ⟨hosc, hflt, henv, hdly, hcmb, hapf, hrev, hpha, hvib, htrm, hpsh⟩ k
    cases k <;> assumption
  · exact fun h => ⟨h .osc, h .flt, h .env, h .dly, h .cmb, h .apf, h .rev, h .pha, h .vib, h .trm,
      h .psh⟩

theorem wf_iff {s : State} :
    s.Wf ↔ configLegal s.cfg = true ∧ (∀ k, (s.unitsOf k).length = instances s.cfg k) ∧ s.BlocksOk
      ∧ s.StatusOk ∧ ∀ k, ∀ u ∈ s.unitsOf k, UnitOk s.cfg k u := by
  rw [← populated_iff]
  refine and_congr_right' (and_congr_right' (and_congr_right' (and_congr_right' ⟨?_, fun h => ?_⟩)))
  · rintro ⟨hdly, hcmb, hapf, hrev, hpha, hvib, hpsh⟩ k
    cases k with
    | osc => exact fun _ _ => trivial
    | flt => exact fun _ _ => trivial
    | env => exact fun _ _ => trivial
    | trm => exact fun _ _ => trivial
    | _ => assumption
  · exact ⟨h .dly, h .cmb, h .apf, h .rev, h .pha, h .vib, h .psh⟩

theorem startOf_ok {c : Config} {k : UnitClass} {u : UnitOf k} (h : UnitOk c k u) :
    UnitOk c k (startOf k u) := by
  cases k with
  | vib => exact rampVib_ok h
  | _ => exact h

/-- Every sample rule answers from a unit within its bounds and leaves it within them (R42, R83). -/
theorem ruleOf_ok {s : State} (hc : configLegal s.cfg = true) (k : UnitClass) (u : UnitOf k) (x m : F32)
    (h : UnitOk s.cfg k u) : ∃ y u', ruleOf s k u x m = .ok (y, u') ∧ UnitOk s.cfg k u' := by
  cases k with
  | osc => exact ⟨_, _, rfl, trivial⟩
  | flt => exact ⟨_, _, rfl, trivial⟩
  | env => exact ⟨_, _, rfl, trivial⟩
  | trm => exact ⟨_, _, rfl, trivial⟩
  | dly => exact stepDly_ok u x m h
  | cmb => exact combStep_ok u x h
  | apf => exact apfStep_ok u x h
  | rev =>
    obtain ⟨y, r', hr, hok, -⟩ := stepRev_ok u x m h
    exact ⟨y, r', hr, hok⟩
  | pha =>
    obtain ⟨y, ph', hr, hok, -⟩ := stepPha_ok u x m (caps_of_configLegal hc s.cfg.capPha (by simp)).1 h
    exact ⟨y, ph', hr, hok⟩
  | vib =>
    obtain ⟨y, v', hr, hok, -⟩ := stepVib_ok u x m h
    exact ⟨y, v', hr, hok⟩
  | psh =>
    obtain ⟨y, u', hr, hok, -⟩ := stepPsh_ok u x m h
    exact ⟨y, u', hr, hok⟩

/-! ### Register numbers, class by class -/

/-- How many registers of the class `SETP` may write: numbers 0 up to this (R28 to R39). -/
def setCount (k : UnitClass) : Nat :=
  match k with
  | .osc => 6
  | .flt => 3
  | .env => 4
  | .dly => 4
  | .cmb => 2
  | .apf => 2
  | .rev => 9
  | .pha => 2
  | .vib => 2
  | .trm => 4
  | .psh => 3

/-- How many registers of the class `GETP` may read. -/
def getCount (c : Config) (k : UnitClass) : Nat :=
  match k with
  | .osc => 7
  | .flt => 10
  | .env => 7
  | .dly => 5
  | .cmb => 3
  | .apf => 3
  | .rev => 23
  | .pha => 2 + c.nPhaStages
  | .vib => 4
  | .trm => 5
  | .psh => 5

theorem setOf_eq_none_iff {c : Config} {k : UnitClass} {u : UnitOf k} {reg : Nat} {v : Word32} :
    setOf c k u reg v = none ↔ setCount k ≤ reg := by
  cases k with
  | osc => exact setOsc_eq_none_iff
  | flt => exact setFlt_eq_none_iff
  | env => exact setEnv_eq_none_iff
  | dly => exact setDly_eq_none_iff
  | cmb => exact setLine_eq_none_iff
  | apf => exact setLine_eq_none_iff
  | rev => exact setRev_eq_none_iff
  | pha => exact setPha_eq_none_iff
  | vib => exact setVib_eq_none_iff
  | trm => exact setTrm_eq_none_iff
  | psh => exact setPsh_eq_none_iff

theorem getOf_eq_none_iff {c : Config} {k : UnitClass} {u : UnitOf k} (h : UnitOk c k u) {reg : Nat} :
    getOf k u reg = none ↔ getCount c k ≤ reg := by
  cases k with
  | osc => exact getOsc_eq_none_iff
  | flt => exact getFlt_eq_none_iff
  | env => exact getEnv_eq_none_iff
  | dly => exact getDly_eq_none_iff
  | cmb => exact getLine_eq_none_iff
  | apf => exact getLine_eq_none_iff
  | rev => exact getRev_eq_none_iff
  | pha =>
    obtain ⟨hlen, -⟩ := h
    rw [getCount, ← hlen]
    exact getPha_eq_none_iff
  | vib => exact getVib_eq_none_iff
  | trm => exact getTrm_eq_none_iff
  | psh => exact getPsh_eq_none_iff

/-! ### The table of checks, form by form -/

theorem sameBlock_comm (b b' : Nat) : sameBlock b b' = sameBlock b' b := by
  rw [sameBlock, sameBlock, decide_eq_decide.2 eq_comm]

/-- The entries of the table for a block operation. -/
def blockChecks (c : Config) (k : UnitClass) (i dst : Nat) (others : List Nat) : List (Bool × Cause) :=
  noInstance (instances c k) i
    :: ((dst :: others).map (noBlock c) ++ (others.map (sameBlock dst) ++ []))

theorem failedCheck_procOf (c : Config) (k : UnitClass) (i bD bS bM : Nat) :
    failedCheck c (procOf k i bD bS bM)
      = firstFailed (blockChecks c k i bD (otherBlocks k [bS] bM)) := by
  cases k with
  | pha | vib | trm => simp only [procOf, failedCheck, sameBlock_comm bM bD]; rfl
  | _ => rfl

theorem failedCheck_prociOf (c : Config) (k : UnitClass) (i bX bM : Nat) :
    failedCheck c (prociOf k i bX bM) = firstFailed (blockChecks c k i bX (otherBlocks k [] bM)) := by
  cases k with
  | pha | vib | trm => simp only [prociOf, failedCheck, sameBlock_comm bM bX]; rfl
  | _ => rfl

theorem failedCheck_resetOf (c : Config) (k : UnitClass) (i : Nat) :
    failedCheck c (resetOf k i) = firstFailed [noInstance (instances c k) i] := by cases k <;> rfl

theorem failedCheck_setpOf (c : Config) (k : UnitClass) (i reg : Nat) (v : Word32) :
    failedCheck c (setpOf k i reg v)
      = firstFailed [noInstance (instances c k) i, noRegister (setCount k) reg] := by
  cases k <;> rfl

theorem failedCheck_getpOf (c : Config) (k : UnitClass) (i reg : Nat) :
    failedCheck c (getpOf k i reg)
      = firstFailed [noInstance (instances c k) i, noRegister (getCount c k) reg] := by
  cases k <;> rfl

/-! ### Each check of the model is its entry of the table -/

/-- The outcome is the one that the first failed check asks for: that fault, or completion without a
fault. -/
def Decides (failed : Option Cause) (s : State) (out : Out) : Prop :=
  match failed with
  | some c => out = .next (raise c s)
  | none => ∃ t, out = .next t ∧ t.status = s.status ∧ t.faultcw = s.faultcw

/-- Checks that all have one cause act as one check. -/
theorem firstFailed_append (bad : Nat → Bool) (cause : Cause) (fields : List Nat)
    (rest : List (Bool × Cause)) :
    firstFailed (fields.map (fun b => (bad b, cause)) ++ rest)
      = if fields.any bad then some cause else firstFailed rest := by
  induction fields with
  | nil => rfl
  | cons b fields ih =>
    rw [List.map_cons, List.cons_append, firstFailed, ih, List.any_cons]
    cases bad b <;> rfl

section
variable {s : State} {rest : List (Bool × Cause)}

theorem withInstance_decides {U : Type} {units : List U} {n i : Nat} {run : U → Out}
    (hn : units.length = n)
    (h : ∀ u, units[i]? = some u → Decides (firstFailed rest) s (run u)) :
    Decides (firstFailed (noInstance n i :: rest)) s (withInstance units i s run) := by
  subst hn
  rcases Nat.lt_or_ge i units.length with hi | hi
  · have hu := List.getElem?_eq_getElem hi
    rw [withInstance_some s run hu, noInstance, firstFailed, decide_eq_false (by omega)]
    exact h _ hu
  · rw [withInstance_none s run hi, noInstance, firstFailed, decide_eq_true hi]
    rfl

theorem withBlocks_decides {fields : List Nat} {run : Out} (h : Decides (firstFailed rest) s run) :
    Decides (firstFailed (fields.map (noBlock s.cfg) ++ rest)) s (withBlocks fields s run) := by
  have hsplit := firstFailed_append (fun b => decide (s.cfg.nBlk ≤ b)) .illegalBlock fields rest
  by_cases hall : ∀ b ∈ fields, b < s.cfg.nBlk
  · rw [withBlocks_ok run hall]
    rw [if_neg (by simpa using hall)] at hsplit
    exact hsplit ▸ h
  · simp only [not_forall, not_lt, exists_prop] at hall
    rw [withBlocks_illegal run hall]
    rw [if_pos (by simpa using hall)] at hsplit
    exact hsplit ▸ rfl

theorem withoutAlias_decides {dst : Nat} {others : List Nat} {run : Out}
    (h : Decides (firstFailed rest) s run) :
    Decides (firstFailed (others.map (sameBlock dst) ++ rest)) s (withoutAlias dst others s run) := by
  have hsplit := firstFailed_append (fun b => decide (dst = b)) .illegalAlias others rest
  by_cases hmem : dst ∈ others
  · rw [withoutAlias_illegal s run hmem]
    rw [if_pos (by simpa using hmem)] at hsplit
    exact hsplit ▸ rfl
  · rw [withoutAlias_ok s run hmem]
    rw [if_neg (by simpa using hmem)] at hsplit
    exact hsplit ▸ h

theorem withRegister_decides {A : Type} {found : Option A} {n reg : Nat} {run : A → Out}
    (hreg : found = none ↔ n ≤ reg)
    (h : ∀ a, found = some a → Decides none s (run a)) :
    Decides (firstFailed [noRegister n reg]) s (withRegister found s run) := by
  cases found with
  | none =>
    rw [noRegister, firstFailed, decide_eq_true (hreg.1 rfl)]
    rfl
  | some a =>
    rw [noRegister, firstFailed, decide_eq_false (by simpa using hreg)]
    exact h a rfl

/-- A block operation completes, for a rule that never stops under an invariant it keeps (R120). -/
theorem processBlock_decides {U : Type} {rule : SampleRule U} {P : U → Prop}
    (hrule : ∀ u x m, P u → ∃ y u', rule u x m = .ok (y, u') ∧ P u') {put : State → U → State}
    (hput : ∀ t u, (put t u).status = t.status ∧ (put t u).faultcw = t.faultcw) {bD bS bM : Nat} {u : U}
    (hu : P u) : Decides (firstFailed []) s (processBlock rule put bD bS bM u s) := by
  obtain ⟨u', s', hp, -, hs, -⟩ := processBlock_spec hrule put bD bS bM u s hu
  refine ⟨_, hp, ?_⟩
  rw [(hput s' u').1, (hput s' u').2, hs]
  exact ⟨rfl, rfl⟩

/-- The `BUF` rules stop for nothing and have no unit. -/
theorem processBlock_unit_decides {rule : SampleRule Unit}
    (hrule : ∀ x m, ∃ y, rule () x m = .ok (y, ())) {bD bS bM : Nat} :
    Decides (firstFailed []) s (processBlock rule (fun s' _ => s') bD bS bM () s) :=
  processBlock_decides (P := fun _ => True)
    (fun _ x m _ => (hrule x m).imp fun _ hy => ⟨(), hy, trivial⟩) (fun _ _ => ⟨rfl, rfl⟩) trivial

end

/-! ### Every form decides as the table says -/

section
variable {s : State} (hs : s.Wf)
include hs

theorem blockUnit_decides (k : UnitClass) (i dst : Nat) (others : List Nat) (bS bM : Nat) :
    Decides (firstFailed (blockChecks s.cfg k i dst others)) s (blockUnit k i dst others bS bM s) := by
  obtain ⟨hc, hlen, -, -, hok⟩ := wf_iff.1 hs
  refine withInstance_decides (hlen k) fun u hu => withBlocks_decides (withoutAlias_decides ?_)
  exact processBlock_decides (ruleOf_ok hc k)
    (fun t u' => ⟨putUnit_status k t i u', putUnit_faultcw k t i u'⟩)
    (startOf_ok (hok k u (List.mem_of_getElem? hu)))

theorem updateUnit_decides (k : UnitClass) (f : UnitOf k → UnitOf k) (i : Nat) :
    Decides (firstFailed [noInstance (instances s.cfg k) i]) s
      (updateUnit (s.unitsOf k) (putUnit k) f i s) := by
  obtain ⟨-, hlen, -⟩ := wf_iff.1 hs
  exact withInstance_decides (hlen k) fun u _ =>
    ⟨_, rfl, putUnit_status k s i (f u), putUnit_faultcw k s i (f u)⟩

theorem setpOf_decides (k : UnitClass) (i reg : Nat) (v : Word32) :
    Decides (failedCheck s.cfg (setpOf k i reg v)) s (exec (setpOf k i reg v) s) := by
  obtain ⟨-, hlen, -⟩ := wf_iff.1 hs
  rw [exec_setpOf, failedCheck_setpOf]
  exact withInstance_decides (hlen k) fun _ _ => withRegister_decides setOf_eq_none_iff fun u' _ =>
    ⟨_, rfl, putUnit_status k s i u', putUnit_faultcw k s i u'⟩

theorem getpOf_decides (k : UnitClass) (i reg : Nat) :
    Decides (failedCheck s.cfg (getpOf k i reg)) s (exec (getpOf k i reg) s) := by
  obtain ⟨-, hlen, -, -, hok⟩ := wf_iff.1 hs
  rw [exec_getpOf, failedCheck_getpOf]
  exact withInstance_decides (hlen k) fun u hu =>
    withRegister_decides (getOf_eq_none_iff (hok k u (List.mem_of_getElem? hu))) fun _ _ =>
      ⟨_, rfl, rfl, rfl⟩

/-- Every command of the set does what the first check it fails says, or completes (R104, R280). -/
theorem exec_decides (i : Instr) : Decides (failedCheck s.cfg i) s (exec i s) := by
  induction i using instr_byForm with
  | sysNop => exact ⟨s, rfl, rfl, rfl⟩
  | sysSetp reg v =>
    refine withRegister_decides (setSys_eq_none_iff (v := v)) fun t ht => ⟨t, rfl, ?_⟩
    match reg with
    | 0 | 1 => cases ht; exact ⟨rfl, rfl⟩
    | n + 2 => cases ht
  | sysGetp reg => exact withRegister_decides getSys_eq_none_iff fun _ _ => ⟨_, rfl, rfl, rfl⟩
  | bufClr bD =>
    exact withBlocks_decides (fields := [bD])
      (processBlock_unit_decides (rule := clearRule) fun _ _ => ⟨_, rfl⟩)
  | bufCpy bD bS =>
    exact withBlocks_decides (fields := [bD, bS])
      (processBlock_unit_decides (rule := copyRule) fun _ _ => ⟨_, rfl⟩)
  | bufAcc bD bS =>
    exact withBlocks_decides (fields := [bD, bS])
      (processBlock_unit_decides (rule := accumulateRule) fun _ _ => ⟨_, rfl⟩)
  | envStart i => exact updateUnit_decides hs .env _ i
  | envRel i => exact updateUnit_decides hs .env _ i
  | envStep i =>
    obtain ⟨-, hlen, -⟩ := wf_iff.1 hs
    exact withInstance_decides (hlen .env) fun _ _ => ⟨_, rfl, rfl, rfl⟩
  | proc k i bD bS bM =>
    obtain ⟨src, md, he⟩ := exec_procOf k i bD bS bM s
    rw [he, failedCheck_procOf]
    exact blockUnit_decides hs k i bD _ src md
  | proci k i bX bM =>
    obtain ⟨src, md, he⟩ := exec_prociOf k i bX bM s
    rw [he, failedCheck_prociOf]
    exact blockUnit_decides hs k i bX _ src md
  | reset k i =>
    rw [exec_resetOf, failedCheck_resetOf]
    exact updateUnit_decides hs k (clearOf k) i
  | setp k i reg v => exact setpOf_decides hs k i reg v
  | getp k i reg => exact getpOf_decides hs k i reg

end

/-- Settles O13: the two clauses are the two cases of `Decides`. -/
theorem checksDecideFaultOrCompletion : Obligations.ChecksDecideFaultOrCompletion := by
  intro i s hs
  have hd := exec_decides hs i
  refine ⟨fun c hc => ?_, fun hn => ?_⟩
  · rw [hc] at hd
    exact hd
  · rw [hn] at hd
    exact hd

end Sys2Proof.Machine
end

section
/-! SUPPORT. Everything a command can do (R40, R301): from any state, what answers a next state is one of
four effects, and each says what it leaves unchanged. The invariants of a step and the statement on
ownership are read off these four. -/

namespace Sys2Proof.Machine

/-! ### The block loop, for a rule that may stop -/

/-- One sample of a rule takes the unit `u` to `u'`. -/
def RuleStep {U : Type} (rule : SampleRule U) (u u' : U) : Prop := ∃ x m y, rule u x m = .ok (y, u')

theorem blockLoop_ok {U : Type} {rule : SampleRule U} {bD bS bM : Nat} {k n : Nat} {u u' : U}
    {s s' : State} (hn : n + k ≤ s.cfg.blockLen) (h : blockLoop rule bD bS bM k n u s = .ok (u', s')) :
    Relation.ReflTransGen (RuleStep rule) u u' ∧ s' = { s with blocks := s'.blocks } ∧ OnlyBlock bD s s'
      ∧ (s.BlocksOk → bD < s.cfg.nBlk → s'.BlocksOk) := by
  induction k generalizing n u s with
  | zero =>
    obtain ⟨rfl, rfl⟩ : u = u' ∧ s = s' := by simpa [blockLoop] using h
    exact ⟨.refl, rfl, fun _ _ => rfl, fun hb _ => hb⟩
  | succ k ih =>
    rw [blockLoop] at h
    split at h
    · cases h
    · rename_i y u1 hr
      have hlt : n < s.cfg.blockLen := by omega
      obtain ⟨hsteps, hs, honly, hblocks⟩ := ih (by rw [writeSample_cfg]; omega) h
      refine ⟨.head ⟨_, _, _, hr⟩ hsteps, by rw [hs]; rfl, fun a ha => ?_, fun hb hD => ?_⟩
      · rw [honly a ha, writeSample_blocks]
        exact wordAt_wordPut_other _ _ fun heq => ha ⟨n, hlt, heq⟩
      · exact hblocks (blocksOk_writeSample y hb hD hlt) hD

/-! ### The four effects -/

/-- What a command does to the block memory and to `RESP`: it writes the destination block only, and
`RESP` only if it is a reading command (R23, R26). -/
structure Writes (i : Instr) (s t : State) : Prop where
  same : t = { s with blocks := t.blocks, resp := t.resp }
  resp : writesResp i = false → t.resp = s.resp
  blocks : ∀ a, (∀ b, targetBlock i = some b → ¬ inBlock s.cfg b a) →
    wordAt t.blocks a = wordAt s.blocks a
  form : s.BlocksOk → t.BlocksOk

/-- What the commands that only change their unit do to it: `RESET`, and for the envelope `START`, `REL`
and `STEP` (R122, R182, R185, R186). -/
def updatesOf (k : UnitClass) : List (UnitOf k → UnitOf k) :=
  match k with
  | .env => [clearOf .env, fun e => { e with control := fZero, phase := .attack, active := true },
      fun e => { e with phase := .release }, stepEnv]
  | k => [clearOf k]

theorem clearOf_mem_updatesOf (k : UnitClass) : clearOf k ∈ updatesOf k := by
  cases k <;> exact List.mem_cons_self

/-- How a command can change a unit of its class: a whole block of its rule, an update, a `SETP`. -/
inductive UnitMove (s : State) (k : UnitClass) (u u' : UnitOf k) : Prop where
  | processed (h : Relation.ReflTransGen (RuleStep (ruleOf s k)) (startOf k u) u')
  | updated (f : UnitOf k → UnitOf k) (hf : f ∈ updatesOf k) (h : u' = f u)
  | set (reg : Nat) (v : Word32) (h : setOf s.cfg k u reg v = some u')

/-- The effects of a command: a fault, new global multipliers, a write to the block memory or `RESP`
alone, or a change of the one unit it names. -/
inductive Effect (i : Instr) (s : State) : State → Prop where
  | fault (c : Cause) : Effect i s (raise c s)
  | globals (a b : F32) (h : ∃ reg v, i = .sysSetp reg v) : Effect i s { s with octmul := a, gpm := b }
  | memory {t : State} (h : Writes i s t) : Effect i s t
  | unit {k : UnitClass} {j : Nat} {u : UnitOf k} {t : State} (u' : UnitOf k)
      (target : targetUnit i = some (k, j)) (hu : (s.unitsOf k)[j]? = some u) (move : UnitMove s k u u')
      (h : Writes i s t) : Effect i s (putUnit k t j u')

theorem writes_self (i : Instr) (s : State) : Writes i s s :=
  ⟨rfl, fun _ => rfl, fun _ _ => rfl, id⟩

theorem writes_putResp {i : Instr} (s : State) (v : Word32) (h : writesResp i = true) :
    Writes i s (putResp s v) :=
  ⟨rfl, fun hf => absurd (h.symm.trans hf) (by decide), fun _ _ => rfl, id⟩

/-! ### Every command has one of the effects -/

/-- Whatever next state the outcome is has one of the effects of the command. -/
def HasEffect (i : Instr) (s : State) (out : Out) : Prop := ∀ t, out = .next t → Effect i s t

section
variable {i : Instr} {s : State}

theorem hasEffect_next {t : State} (h : Effect i s t) : HasEffect i s (.next t) := by
  rintro _ ⟨⟩
  exact h

theorem withInstance_hasEffect {U : Type} {units : List U} {j : Nat} {run : U → Out}
    (h : ∀ u, units[j]? = some u → HasEffect i s (run u)) :
    HasEffect i s (withInstance units j s run) := by
  unfold withInstance
  split
  · exact h _ ‹_›
  · exact hasEffect_next (.fault _)

theorem withBlocks_hasEffect {fields : List Nat} {run : Out}
    (h : (∀ b ∈ fields, b < s.cfg.nBlk) → HasEffect i s run) :
    HasEffect i s (withBlocks fields s run) := by
  unfold withBlocks
  split
  · rename_i hall
    exact h (by simpa using hall)
  · exact hasEffect_next (.fault _)

theorem withoutAlias_hasEffect {dst : Nat} {others : List Nat} {run : Out} (h : HasEffect i s run) :
    HasEffect i s (withoutAlias dst others s run) := by
  unfold withoutAlias
  split
  · exact hasEffect_next (.fault _)
  · exact h

theorem withRegister_hasEffect {A : Type} {found : Option A} {run : A → Out}
    (h : ∀ a, found = some a → HasEffect i s (run a)) : HasEffect i s (withRegister found s run) := by
  cases found with
  | none => exact hasEffect_next (.fault _)
  | some a => exact h a rfl

/-- What a block operation that completes does: it runs its rule from its unit on and writes its
destination block. -/
theorem processBlock_writes {U : Type} {rule : SampleRule U} {put : State → U → State}
    {bD bS bM : Nat} {u : U} {t : State} (hi : targetBlock i = some bD) (hD : bD < s.cfg.nBlk)
    (h : processBlock rule put bD bS bM u s = .next t) :
    ∃ u' s', t = put s' u' ∧ Relation.ReflTransGen (RuleStep rule) u u' ∧ Writes i s s' := by
  obtain ⟨u', s', hloop, rfl⟩ := processBlock_next h
  obtain ⟨hsteps, hs, honly, hblocks⟩ := blockLoop_ok (by omega) hloop
  refine ⟨u', s', rfl, hsteps, ?_, fun _ => by rw [hs], fun a ha => honly a (ha bD hi),
    fun hb => hblocks hb hD⟩
  rw [hs]

theorem processBlock_memory_hasEffect {rule : SampleRule Unit} {bD bS bM : Nat}
    (hi : targetBlock i = some bD) (hD : bD < s.cfg.nBlk) :
    HasEffect i s (processBlock rule (fun s' _ => s') bD bS bM () s) := by
  intro t ht
  obtain ⟨_, s', rfl, -, hw⟩ := processBlock_writes hi hD ht
  exact .memory hw

theorem blockUnit_hasEffect {k : UnitClass} {j dst : Nat} {others : List Nat} {bS bM : Nat}
    (hu : targetUnit i = some (k, j)) (hb : targetBlock i = some dst) :
    HasEffect i s (blockUnit k j dst others bS bM s) := by
  refine withInstance_hasEffect fun u hj => withBlocks_hasEffect fun hall => withoutAlias_hasEffect ?_
  intro t ht
  obtain ⟨u', s', rfl, hsteps, hw⟩ := processBlock_writes hb (hall dst List.mem_cons_self) ht
  exact .unit u' hu hj (.processed hsteps) hw

theorem updateUnit_hasEffect {k : UnitClass} {j : Nat} {f : UnitOf k → UnitOf k}
    (hu : targetUnit i = some (k, j)) (hf : f ∈ updatesOf k) :
    HasEffect i s (updateUnit (s.unitsOf k) (putUnit k) f j s) :=
  withInstance_hasEffect fun u hj =>
    hasEffect_next (.unit (f u) hu hj (.updated f hf rfl) (writes_self i s))

theorem setpUnit_hasEffect {k : UnitClass} {j reg : Nat} {v : Word32}
    (hu : targetUnit i = some (k, j)) :
    HasEffect i s (setpUnit (s.unitsOf k) (putUnit k) (fun u => setOf s.cfg k u reg v) j s) :=
  withInstance_hasEffect fun _ hj => withRegister_hasEffect fun u' hset =>
    hasEffect_next (.unit u' hu hj (.set reg v hset) (writes_self i s))

theorem getpUnit_hasEffect {U : Type} {units : List U} {get : U → Option Word32} {j : Nat}
    (hr : writesResp i = true) : HasEffect i s (getpUnit units get j s) :=
  withInstance_hasEffect fun _ _ => withRegister_hasEffect fun v _ =>
    hasEffect_next (.memory (writes_putResp s v hr))

end

theorem exec_hasEffect (i : Instr) (s : State) : HasEffect i s (exec i s) := by
  induction i using instr_byForm with
  | sysNop => exact hasEffect_next (.memory (writes_self _ s))
  | sysSetp reg v =>
    refine withRegister_hasEffect fun t ht => hasEffect_next ?_
    match reg with
    | 0 => cases ht; exact .globals v s.gpm ⟨0, v, rfl⟩
    | 1 => cases ht; exact .globals s.octmul v ⟨1, v, rfl⟩
    | n + 2 => cases ht
  | sysGetp reg =>
    exact withRegister_hasEffect fun v _ => hasEffect_next (.memory (writes_putResp s v rfl))
  | bufClr bD =>
    exact withBlocks_hasEffect fun hall => processBlock_memory_hasEffect rfl (hall bD (by simp))
  | bufCpy bD bS =>
    exact withBlocks_hasEffect fun hall => processBlock_memory_hasEffect rfl (hall bD (by simp))
  | bufAcc bD bS =>
    exact withBlocks_hasEffect fun hall => processBlock_memory_hasEffect rfl (hall bD (by simp))
  | envStart j => exact updateUnit_hasEffect (k := .env) rfl (by simp [updatesOf])
  | envRel j => exact updateUnit_hasEffect (k := .env) rfl (by simp [updatesOf])
  | envStep j =>
    exact withInstance_hasEffect fun e hj => hasEffect_next <|
      .unit (k := .env) (stepEnv e) rfl hj (.updated stepEnv (by simp [updatesOf]) rfl)
        (writes_putResp s (flagWord (stepEnv e).active) rfl)
  | proc k j bD bS bM =>
    obtain ⟨src, md, he⟩ := exec_procOf k j bD bS bM s
    rw [he]
    exact blockUnit_hasEffect (by cases k <;> rfl) (by cases k <;> rfl)
  | proci k j bX bM =>
    obtain ⟨src, md, he⟩ := exec_prociOf k j bX bM s
    rw [he]
    exact blockUnit_hasEffect (by cases k <;> rfl) (by cases k <;> rfl)
  | reset k j =>
    rw [exec_resetOf]
    exact updateUnit_hasEffect (by cases k <;> rfl) (clearOf_mem_updatesOf k)
  | setp k j reg v =>
    rw [exec_setpOf]
    exact setpUnit_hasEffect (by cases k <;> rfl)
  | getp k j reg =>
    rw [exec_getpOf]
    exact getpUnit_hasEffect (by cases k <;> rfl)

/-! ### What an effect leaves unchanged -/

namespace Writes

variable {i : Instr} {s t : State} (h : Writes i s t)
include h

theorem cfg : t.cfg = s.cfg := by rw [h.same]
theorem status : t.status = s.status := by rw [h.same]
theorem faultcw : t.faultcw = s.faultcw := by rw [h.same]

theorem unitsOf (k : UnitClass) : t.unitsOf k = s.unitsOf k := by
  rw [h.same]
  cases k <;> rfl

end Writes

namespace Effect

variable {i : Instr} {s t : State}

/-- The configuration, the host's side, the command port and the reset count are never written. -/
theorem hostSide (h : Effect i s t) :
    t.cfg = s.cfg ∧ t.host = s.host ∧ t.cmdPort = s.cmdPort ∧ t.hostData = s.hostData
      ∧ t.resets = s.resets := by
  cases h with
  | fault c => exact ⟨rfl, rfl, rfl, rfl, rfl⟩
  | globals a b _ => exact ⟨rfl, rfl, rfl, rfl, rfl⟩
  | memory h => rw [h.same]; exact ⟨rfl, rfl, rfl, rfl, rfl⟩
  | unit u' _ _ _ h =>
    simp only [putUnit_cfg, putUnit_host, putUnit_cmdPort, putUnit_hostData, putUnit_resets]
    rw [h.same]
    exact ⟨rfl, rfl, rfl, rfl, rfl⟩

theorem resp (h : Effect i s t) (hi : writesResp i = false) : t.resp = s.resp := by
  cases h with
  | fault c => rfl
  | globals a b _ => rfl
  | memory h => exact h.resp hi
  | unit u' _ _ _ h => rw [putUnit_resp, h.resp hi]

/-- `STATUS` and `FAULTCW` change by a fault only. -/
theorem ports (h : Effect i s t) :
    (t.status = s.status ∧ t.faultcw = s.faultcw) ∨ ∃ c, t = raise c s := by
  cases h with
  | fault c => exact .inr ⟨c, rfl⟩
  | globals a b _ => exact .inl ⟨rfl, rfl⟩
  | memory h => exact .inl ⟨h.status, h.faultcw⟩
  | unit u' _ _ _ h =>
    rw [putUnit_status, putUnit_faultcw]
    exact .inl ⟨h.status, h.faultcw⟩

theorem multipliers (h : Effect i s t) (hi : ∀ reg v, i ≠ .sysSetp reg v) :
    t.octmul = s.octmul ∧ t.gpm = s.gpm := by
  cases h with
  | fault c => exact ⟨rfl, rfl⟩
  | globals a b h =>
    obtain ⟨reg, v, h⟩ := h
    exact absurd h (hi reg v)
  | memory h => rw [h.same]; exact ⟨rfl, rfl⟩
  | unit u' _ _ _ h =>
    rw [putUnit_octmul, putUnit_gpm, h.same]
    exact ⟨rfl, rfl⟩

theorem blocks (h : Effect i s t) (a : Nat) (ha : ∀ b, targetBlock i = some b → ¬ inBlock s.cfg b a) :
    wordAt t.blocks a = wordAt s.blocks a := by
  cases h with
  | fault c => rfl
  | globals a b _ => rfl
  | memory h => exact h.blocks a ha
  | unit u' _ _ _ h => rw [putUnit_blocks, h.blocks a ha]

theorem blocksOk (h : Effect i s t) (hs : s.BlocksOk) : t.BlocksOk := by
  cases h with
  | fault c => exact hs
  | globals a b _ => exact hs
  | memory h => exact h.form hs
  | unit u' _ _ _ h =>
    rw [State.BlocksOk, putUnit_blocks, putUnit_cfg]
    exact h.form hs

/-- The units of a class stay, or the one unit that the command names moves. -/
theorem unitsOf (h : Effect i s t) (k : UnitClass) :
    t.unitsOf k = s.unitsOf k
      ∨ ∃ j u u', targetUnit i = some (k, j) ∧ (s.unitsOf k)[j]? = some u ∧ UnitMove s k u u'
        ∧ t.unitsOf k = (s.unitsOf k).set j u' := by
  cases h with
  | fault c => exact .inl (raise_unitsOf k c s)
  | globals a b _ => exact .inl (by cases k <;> rfl)
  | memory h => exact .inl (h.unitsOf k)
  | @unit k' j u t u' target hu move h =>
    by_cases hk : k = k'
    · subst hk
      exact .inr ⟨j, u, u', target, hu, move, by rw [putUnit_unitsOf, h.unitsOf k]⟩
    · exact .inl (by rw [putUnit_unitsOf_other t j u' hk, h.unitsOf k])

/-- A unit that the command does not name is unchanged (R40, R301). -/
theorem unitsOf_getElem? (h : Effect i s t) {k : UnitClass} {j : Nat} (hj : targetUnit i ≠ some (k, j)) :
    (t.unitsOf k)[j]? = (s.unitsOf k)[j]? := by
  rcases h.unitsOf k with he | ⟨j', u, u', target, -, -, he⟩
  · rw [he]
  · have hne : j' ≠ j := by
      rintro rfl
      exact hj target
    rw [he, List.getElem?_set_ne hne]

theorem length_unitsOf (h : Effect i s t) (k : UnitClass) :
    (t.unitsOf k).length = (s.unitsOf k).length := by
  rcases h.unitsOf k with he | ⟨j, u, u', -, -, -, he⟩
  · rw [he]
  · rw [he, List.length_set]

/-- What every move of a unit keeps, every unit of the class keeps. -/
theorem forall_unitsOf (h : Effect i s t) {k : UnitClass} {P : UnitOf k → Prop}
    (hmove : ∀ u u', P u → UnitMove s k u u' → P u') (hs : ∀ u ∈ s.unitsOf k, P u) :
    ∀ u ∈ t.unitsOf k, P u := by
  rcases h.unitsOf k with he | ⟨j, u, u', -, hu, move, he⟩
  · rwa [he]
  · rw [he]
    intro v hv
    rcases List.mem_or_eq_of_mem_set hv with hv | rfl
    · exact hs v hv
    · exact hmove u v (hs u (List.mem_of_getElem? hu)) move

end Effect

/-- Settles O15: the clauses are what the four effects leave unchanged; that a command which passes its
checks raises nothing is `exec_decides`. -/
theorem commandsWriteOnlyTheirOwn : Obligations.CommandsWriteOnlyTheirOwn := by
  intro i s t h
  have he := exec_hasEffect i s t h
  obtain ⟨hcfg, hhost, hcmd, hdata, hresets⟩ := he.hostSide
  refine ⟨hcfg, hhost, hcmd, hdata, hresets, he.resp, he.ports, fun hs hn => ?_, he.multipliers,
    he.blocks, fun _ => he.unitsOf_getElem?, fun _ => he.unitsOf_getElem?,
    fun _ => he.unitsOf_getElem?, fun _ => he.unitsOf_getElem?, fun _ => he.unitsOf_getElem?,
    fun _ => he.unitsOf_getElem?, fun _ => he.unitsOf_getElem?, fun _ => he.unitsOf_getElem?,
    fun _ => he.unitsOf_getElem?, fun _ => he.unitsOf_getElem?, fun _ => he.unitsOf_getElem?⟩
  obtain ⟨t', ht', hstatus, hfaultcw⟩ := (checksDecideFaultOrCompletion i s hs).2 hn
  obtain rfl : t' = t := Host.Outcome.next.inj (ht'.symm.trans h)
  exact ⟨hstatus, hfaultcw⟩

end Sys2Proof.Machine
end

section
/-! SUPPORT. What one step can do, and the invariants of the units: what hard reset gives and every move
of a unit of a class keeps, every step keeps. The index invariants (R42) follow. -/

namespace Sys2Proof.Machine

/-! ### Everything a step can do (R80) -/

/-- The state with the host's side and the command port as given, which no invariant reads. -/
def State.withHostSide (s : State) (host : List HostAction) (cmdPort : CmdWord)
    (hostData : BitVec 64) : State :=
  { s with host := host, cmdPort := cmdPort, hostData := hostData }

/-- The steps that answer: one that changes nothing but the host's side (idling, an ignored command, a
read), a sample written, a hard reset, an undecodable word, a command. -/
inductive StepMove (s : State) : State → Prop where
  | hostSide (host : List HostAction) (cmdPort : CmdWord) (hostData : BitVec 64) :
      StepMove s (s.withHostSide host cmdPort hostData)
  | writeSample (rest : List HostAction) {i n : Nat} (v : F32) (hi : i < s.cfg.nBlk)
      (hn : n < s.cfg.blockLen) :
      StepMove s (writeSample (s.withHostSide rest s.cmdPort s.hostData) i n v)
  | hardReset (rest : List HostAction) :
      StepMove s (hardReset (s.withHostSide rest s.cmdPort s.hostData))
  | illegal (rest : List HostAction) (cw : CmdWord) :
      StepMove s (raise .illegalOpcode (s.withHostSide rest cw s.hostData))
  | command {rest : List HostAction} {cw : CmdWord} {i : Instr} {t : State}
      (h : Effect i (s.withHostSide rest cw s.hostData) t) : StepMove s t

theorem samplePortInRange_iff {c : Config} {i n : Nat} :
    samplePortInRange c i n = true ↔ i < c.nBlk ∧ n < c.blockLen := by simp [samplePortInRange]

theorem hostStep_next {s t : State} {a : HostAction} {rest : List HostAction}
    (h : hostStep a { s with host := rest } = .next t) : StepMove s t := by
  cases a with
  | issue cw =>
    simp only [hostStep, issue] at h
    split at h
    · cases h
      exact .hostSide rest s.cmdPort s.hostData
    · split at h
      · cases h
        exact .illegal rest cw
      · exact .command (exec_hasEffect _ _ _ h)
  | writeSample i n v =>
    simp only [hostStep] at h
    split at h
    · rename_i hin
      obtain ⟨hi, hn⟩ := samplePortInRange_iff.1 hin
      cases h
      exact .writeSample rest v hi hn
    · cases h
  | readSample i n =>
    simp only [hostStep] at h
    split at h
    · cases h
      exact .hostSide rest s.cmdPort _
    · cases h
  | readStatus => cases h; exact .hostSide rest s.cmdPort _
  | readFaultcw => cases h; exact .hostSide rest s.cmdPort _
  | readResp => cases h; exact .hostSide rest s.cmdPort _
  | hardReset => cases h; exact .hardReset rest

theorem step_next {s t : State} (h : step s = .next t) : configLegal s.cfg = true ∧ StepMove s t := by
  unfold step at h
  split at h
  · refine ⟨‹_›, ?_⟩
    split at h
    · cases h
      exact .hostSide s.host s.cmdPort s.hostData
    · exact hostStep_next h
  · cases h

@[simp] theorem withHostSide_unitsOf (k : UnitClass) (s : State) (host : List HostAction)
    (cmdPort : CmdWord) (hostData : BitVec 64) :
    (s.withHostSide host cmdPort hostData).unitsOf k = s.unitsOf k := by cases k <;> rfl

theorem StepMove.cfg {s t : State} (h : StepMove s t) : t.cfg = s.cfg := by
  cases h with
  | hostSide _ _ _ => rfl
  | writeSample _ _ _ _ => rfl
  | hardReset _ => rfl
  | illegal _ _ => rfl
  | command h => exact h.hostSide.1

/-! ### Invariants of the units of one class -/

/-- Hard reset gives `P`, and every move of a unit of the class keeps it. -/
structure Kept (c : Config) (k : UnitClass) (P : UnitOf k → Prop) : Prop where
  hardReset : P (hardResetOf c k)
  start : ∀ u, P u → P (startOf k u)
  rule : ∀ s u u', s.cfg = c → P u → RuleStep (ruleOf s k) u u' → P u'
  update : ∀ u, ∀ f ∈ updatesOf k, P u → P (f u)
  set : ∀ u reg v u', P u → setOf c k u reg v = some u' → P u'

theorem Kept.move {c : Config} {k : UnitClass} {P : UnitOf k → Prop} (hP : Kept c k P) {s : State}
    {u u' : UnitOf k} (h : UnitMove s k u u') (hs : s.cfg = c) (hu : P u) : P u' := by
  subst hs
  cases h with
  | processed h =>
    induction h with
    | refl => exact hP.start u hu
    | tail _ hstep ih => exact hP.rule s _ _ rfl ih hstep
  | updated f hf h => exact h ▸ hP.update u f hf hu
  | set reg v h => exact hP.set u reg v u' hu h

/-- What is kept in every legal configuration, every step keeps. -/
theorem step_keeps {k : UnitClass} {P : Config → UnitOf k → Prop}
    (hP : ∀ c, configLegal c = true → Kept c k (P c)) {s t : State} (h : step s = .next t)
    (hs : ∀ u ∈ s.unitsOf k, P s.cfg u) : ∀ u ∈ t.unitsOf k, P t.cfg u := by
  obtain ⟨hc, hmove⟩ := step_next h
  rw [hmove.cfg]
  cases hmove with
  | hostSide _ _ _ => rwa [withHostSide_unitsOf]
  | writeSample _ _ _ _ => rwa [writeSample_unitsOf, withHostSide_unitsOf]
  | hardReset rest =>
    intro u hu
    rw [hardReset_unitsOf] at hu
    exact List.eq_of_mem_replicate hu ▸ (hP s.cfg hc).hardReset
  | illegal _ _ => rwa [raise_unitsOf, withHostSide_unitsOf]
  | command he =>
    refine he.forall_unitsOf (fun _ _ hu hm => (hP s.cfg hc).move hm rfl hu) ?_
    rwa [withHostSide_unitsOf]

/-- A class other than `ENV` has one update, its `RESET`. -/
theorem eq_clearOf_of_mem {k : UnitClass} (hk : k ≠ .env) {f : UnitOf k → UnitOf k}
    (hf : f ∈ updatesOf k) : f = clearOf k := by
  cases k with
  | env => exact absurd rfl hk
  | _ => exact List.mem_singleton.1 hf

/-! ### The index invariants (R42) -/

theorem clearLine_ok {cap : Nat} {u : Line} (h : Line.Ok cap u) : Line.Ok cap (clearLine u) := by
  obtain ⟨hlo, hhi, hcur, -⟩ := h
  exact ⟨hlo, hhi, Nat.zero_lt_of_lt hcur, rfl⟩

/-- A limit within [1, capacity] is all that a line's cursor and buffer do not say. -/
theorem line_ok_of_limit {cap limit : Nat} {u : Line} (h : Line.Ok cap u)
    (hl : 1 ≤ limit ∧ limit ≤ cap) : Line.Ok cap { u with limit := limit } := by
  obtain ⟨-, -, hcur, hbuf⟩ := h
  exact ⟨hl.1, hl.2, hcur, hbuf⟩

theorem line_cap_pos {cap : Nat} {u : Line} (h : Line.Ok cap u) : 1 ≤ cap := le_trans h.1 h.2.1

theorem retime_ok {cap : Nat} {u : Line} (time : F32) (h : Line.Ok cap u) :
    Line.Ok cap (retime time cap u) := line_ok_of_limit h (sati_mem _ (line_cap_pos h))

theorem clearOf_ok {c : Config} {k : UnitClass} {u : UnitOf k} (h : UnitOk c k u) :
    UnitOk c k (clearOf k u) := by
  cases k with
  | osc | flt | env | trm => exact trivial
  | dly =>
    obtain ⟨hcur, hlen, -⟩ := h
    exact ⟨Nat.zero_lt_of_lt hcur, hlen, rfl⟩
  | cmb => exact clearLine_ok h
  | apf => exact clearLine_ok h
  | rev =>
    obtain ⟨h0, h1, h2, h3, h4, h5, h6⟩ := h
    exact ⟨clearLine_ok h0, clearLine_ok h1, clearLine_ok h2, clearLine_ok h3, clearLine_ok h4,
      clearLine_ok h5, clearLine_ok h6⟩
  | pha =>
    obtain ⟨hlen, hstages⟩ := h
    refine ⟨(List.length_map _).trans hlen, fun st hst => ?_⟩
    obtain ⟨old, hold, rfl⟩ := List.mem_map.1 hst
    exact ⟨Nat.zero_lt_of_lt (hstages old hold).1, rfl⟩
  | vib =>
    obtain ⟨hint, -, hcur, -⟩ := h
    exact ⟨hint, Nat.zero_le _, Nat.zero_lt_of_lt hcur, rfl⟩
  | psh =>
    obtain ⟨hcur, -⟩ := h
    exact ⟨Nat.zero_lt_of_lt hcur, rfl⟩

theorem updatesOf_ok {c : Config} {k : UnitClass} {u : UnitOf k} {f : UnitOf k → UnitOf k}
    (hf : f ∈ updatesOf k) (h : UnitOk c k u) : UnitOk c k (f u) := by
  by_cases hk : k = .env
  · subst hk
    exact trivial
  · rw [eq_clearOf_of_mem hk hf]
    exact clearOf_ok h

theorem setDly_ok {c : Config} {d d' : Dly} {reg : Nat} {v : Word32} (h : Dly.Ok c d)
    (hset : setDly c d reg v = some d') : Dly.Ok c d' := by
  match reg with
  | 0 =>
    cases hset
    obtain ⟨hcur, -, hbuf⟩ := h
    exact ⟨hcur, (sati_mem _ (Nat.zero_le _)).2, hbuf⟩
  | 1 | 2 | 3 => cases hset; exact h
  | n + 4 => cases hset

theorem setLine_ok {cap : Nat} {u u' : Line} {reg : Nat} {v : Word32} (h : Line.Ok cap u)
    (hset : setLine cap u reg v = some u') : Line.Ok cap u' := by
  match reg with
  | 0 =>
    cases hset
    exact line_ok_of_limit h (sati_mem _ (line_cap_pos h))
  | 1 => cases hset; exact h
  | n + 2 => cases hset

theorem setRev_ok {c : Config} {r r' : Rev} {reg : Nat} {v : Word32} (h : Rev.Ok c r)
    (hset : setRev c r reg v = some r') : Rev.Ok c r' := by
  match reg with
  | 1 =>
    cases hset
    obtain ⟨h0, h1, h2, h3, h4, h5, h6⟩ := h
    exact ⟨retime_ok _ h0, retime_ok _ h1, retime_ok _ h2, retime_ok _ h3, retime_ok _ h4,
      retime_ok _ h5, retime_ok _ h6⟩
  | 0 | 2 | 3 | 4 | 5 | 6 | 7 | 8 => cases hset; exact h
  | n + 9 => cases hset

theorem setPha_ok {c : Config} {ph ph' : Pha} {reg : Nat} {v : Word32} (h : Pha.Ok c ph)
    (hset : setPha ph reg v = some ph') : Pha.Ok c ph' := by
  match reg with
  | 0 | 1 => cases hset; exact h
  | n + 2 => cases hset

theorem setVib_ok {c : Config} {v v' : Vib} {reg : Nat} {w : Word32} (h : Vib.Ok c v)
    (hset : setVib c v reg w = some v') : Vib.Ok c v' := by
  match reg with
  | 0 => cases hset; exact h
  | 1 =>
    cases hset
    obtain ⟨-, hcur⟩ := h
    exact ⟨(sati_mem _ (Nat.zero_le _)).2, hcur⟩
  | n + 2 => cases hset

theorem setPsh_ok {c : Config} {u u' : Psh} {reg : Nat} {v : Word32} (h : Psh.Ok c u)
    (hset : setPsh c u reg v = some u') : Psh.Ok c u' := by
  match reg with
  | 0 | 1 | 2 => cases hset; exact h
  | n + 3 => cases hset

theorem setOf_ok {c : Config} {k : UnitClass} {u u' : UnitOf k} {reg : Nat} {v : Word32}
    (h : UnitOk c k u) (hset : setOf c k u reg v = some u') : UnitOk c k u' := by
  cases k with
  | osc | flt | env | trm => exact trivial
  | dly => exact setDly_ok h hset
  | cmb => exact setLine_ok h hset
  | apf => exact setLine_ok h hset
  | rev => exact setRev_ok h hset
  | pha => exact setPha_ok h hset
  | vib => exact setVib_ok h hset
  | psh => exact setPsh_ok h hset

theorem hardResetOf_ok {c : Config} (hc : configLegal c = true) (k : UnitClass) :
    UnitOk c k (hardResetOf c k) := by
  have hcap := caps_of_configLegal hc
  cases k with
  | osc | flt | env | trm => exact trivial
  | dly => exact dly_hardReset_ok hc
  | cmb => exact line_hardReset_ok _ (hcap c.capCmb (by simp))
  | apf => exact line_hardReset_ok _ (hcap c.capApf (by simp))
  | rev => exact rev_hardReset_ok hc
  | pha => exact pha_hardReset_ok hc
  | vib => exact vib_hardReset_ok hc
  | psh => exact psh_hardReset_ok hc

theorem kept_unitOk {c : Config} (hc : configLegal c = true) (k : UnitClass) : Kept c k (UnitOk c k) where
  hardReset := hardResetOf_ok hc k
  start _ := startOf_ok
  rule := by
    rintro s u u' rfl hu ⟨x, m, y, hr⟩
    obtain ⟨y₁, u₁, hr₁, hok⟩ := ruleOf_ok hc k u x m hu
    obtain ⟨-, rfl⟩ : y₁ = y ∧ u₁ = u' := by simpa using hr₁.symm.trans hr
    exact hok
  update _ _ hf := updatesOf_ok hf
  set _ _ _ _ := setOf_ok

theorem statusOk_raise (c : Cause) (s : State) : (raise c s).StatusOk := by
  cases c <;> simp [State.StatusOk]

theorem Effect.statusOk {i : Instr} {s t : State} (h : Effect i s t) (hs : s.StatusOk) : t.StatusOk := by
  rcases h.ports with ⟨hstatus, hfaultcw⟩ | ⟨c, rfl⟩
  · rw [State.StatusOk, hstatus, hfaultcw]
    exact hs
  · exact statusOk_raise c s

theorem StepMove.statusOk {s t : State} (h : StepMove s t) (hs : s.StatusOk) : t.StatusOk := by
  cases h with
  | hostSide _ _ _ => exact hs
  | writeSample _ _ _ _ => exact hs
  | hardReset _ => exact .inl ⟨rfl, rfl⟩
  | illegal _ _ => exact statusOk_raise _ _
  | command h => exact h.statusOk hs

theorem StepMove.blocksOk {s t : State} (h : StepMove s t) (hs : s.BlocksOk) : t.BlocksOk := by
  cases h with
  | hostSide _ _ _ => exact hs
  | writeSample _ v hi hn => exact blocksOk_writeSample v hs hi hn
  | hardReset _ => exact powerOn_blocksOk s.cfg (s.resets + 1)
  | illegal _ _ => exact hs
  | command h => exact h.blocksOk hs

theorem StepMove.length_unitsOf {s t : State} (h : StepMove s t) (k : UnitClass)
    (hs : (s.unitsOf k).length = instances s.cfg k) : (t.unitsOf k).length = instances s.cfg k := by
  cases h with
  | hostSide _ _ _ => rwa [withHostSide_unitsOf]
  | writeSample _ _ _ _ => rwa [writeSample_unitsOf, withHostSide_unitsOf]
  | hardReset _ => rw [hardReset_unitsOf, List.length_replicate]; rfl
  | illegal _ _ => rwa [raise_unitsOf, withHostSide_unitsOf]
  | command h => rwa [h.length_unitsOf, withHostSide_unitsOf]

theorem step_wf {s t : State} (hs : s.Wf) (h : step s = .next t) : t.Wf := by
  obtain ⟨hc, hlen, hblocks, hstatus, hok⟩ := wf_iff.1 hs
  obtain ⟨-, hmove⟩ := step_next h
  exact wf_iff.2 ⟨hmove.cfg ▸ hc, fun k => hmove.cfg ▸ hmove.length_unitsOf k (hlen k),
    hmove.blocksOk hblocks, hmove.statusOk hstatus,
    fun k => step_keeps (fun _ hc => kept_unitOk hc k) h (hok k)⟩

/-- No command is refused in a state that keeps the index invariants (R280). -/
theorem exec_ne_refused {s : State} (hs : s.Wf) (i : Instr) (r : Refusal) : exec i s ≠ .refused r := by
  have hd := exec_decides hs i
  intro h
  rw [h] at hd
  cases hf : failedCheck s.cfg i with
  | some c => rw [hf] at hd; cases hd
  | none => rw [hf] at hd; obtain ⟨_, ht, -⟩ := hd; cases ht

theorem issue_ne_refused {s : State} (hs : s.Wf) (cw : CmdWord) (r : Refusal) :
    issue cw s ≠ .refused r := by
  unfold issue
  split
  · nofun
  · split
    · nofun
    · exact exec_ne_refused (s := { s with cmdPort := cw }) hs _ r

theorem hostStep_refused {s : State} (hs : s.Wf) {a : HostAction} {r : Refusal}
    (h : hostStep a s = .refused r) : r = .samplePortIndex := by
  cases a with
  | issue cw => exact absurd h (issue_ne_refused hs cw r)
  | writeSample i n v =>
    simp only [hostStep] at h
    split at h
    · cases h
    · cases h; rfl
  | readSample i n =>
    simp only [hostStep] at h
    split at h
    · cases h
    · cases h; rfl
  | _ => cases h

/-- Settles O16: every step that answers keeps `Wf` part by part, and of the host's actions only the
sample port is refused. -/
theorem indexInvariantsAreKept : Obligations.IndexInvariantsAreKept := by
  refine fun s hs => ⟨fun t => step_wf hs, fun r h => ?_⟩
  rw [step, if_pos hs.1] at h
  split at h
  · cases h
  · rename_i a rest _
    exact hostStep_refused (s := { s with host := rest }) hs h

end Sys2Proof.Machine
end

section
/-! SUPPORT. The invariants of the values (R27, R42): the parameters that `SETP` clamps, the envelopes,
the designed coefficients and limits, and the read positions of the pitch shifters. Each is a property of
the units of one class that hard reset gives and every move of such a unit keeps. -/

namespace Sys2Proof.Machine

/-! ### Sample rules that answer -/

/-- A computation in two parts answers when both parts do. -/
theorem except_bind_eq_ok {A B : Type} {x : Except Refusal A} {f : A → Except Refusal B} {b : B} :
    (x >>= f) = .ok b ↔ ∃ a, x = .ok a ∧ f a = .ok b := by
  cases x with
  | error r => simp [bind, Except.bind]
  | ok a => simp [bind, Except.bind]

theorem combStep_limit {cap : Nat} {u u' : Line} {x y : F32} (h : combStep cap u x = .ok (y, u')) :
    u'.limit = u.limit := by
  simp only [combStep, except_bind_eq_ok] at h
  obtain ⟨_, -, _, -, h⟩ := h
  cases h
  rfl

theorem apfStep_limit {cap : Nat} {u u' : Line} {x y : F32} (h : apfStep cap u x = .ok (y, u')) :
    u'.limit = u.limit := by
  simp only [apfStep, except_bind_eq_ok] at h
  obtain ⟨_, -, _, -, h⟩ := h
  cases h
  rfl

/-- The seven limits of a reverb. -/
def revLimits (r : Rev) : List Nat :=
  [r.cb0.limit, r.cb1.limit, r.cb2.limit, r.cb3.limit, r.ap0.limit, r.ap1.limit, r.ap2.limit]

/-- A sample leaves the parameter `TIME` and the seven limits alone (R230). -/
theorem stepRev_keeps {c : Config} {r r' : Rev} {x m y : F32} (h : stepRev c r x m = .ok (y, r')) :
    r'.time = r.time ∧ revLimits r' = revLimits r := by
  simp only [stepRev, except_bind_eq_ok, Prod.exists] at h
  obtain ⟨_, _, h0, _, _, h1, _, _, h2, _, _, h3, _, _, h4, _, _, h5, _, _, h6, h⟩ := h
  cases h
  simp only [revLimits, combStep_limit h0, combStep_limit h1, combStep_limit h2, combStep_limit h3,
    apfStep_limit h4, apfStep_limit h5, apfStep_limit h6, and_self]

theorem stepPha_depth {c : Config} {ph ph' : Pha} {x l y : F32} (h : stepPha c ph x l = .ok (y, ph')) :
    ph'.depth = ph.depth := by
  simp only [stepPha, except_bind_eq_ok] at h
  obtain ⟨_, -, h⟩ := h
  cases h
  rfl

theorem stepVib_depth {c : Config} {v v' : Vib} {x l y : F32} (h : stepVib c v x l = .ok (y, v')) :
    v'.depth = v.depth := by
  simp only [stepVib, except_bind_eq_ok] at h
  obtain ⟨_, -, _, -, h⟩ := h
  cases h
  rfl

theorem stepPsh_keeps {c : Config} {u u' : Psh} {x m y : F32} (h : stepPsh c u x m = .ok (y, u')) :
    u'.speed = u.speed ∧ u'.mix = u.mix ∧ u'.rpos = pshAdvance c u := by
  simp only [stepPsh, except_bind_eq_ok] at h
  obtain ⟨_, -, _, -, _, -, h⟩ := h
  cases h
  exact ⟨rfl, rfl, rfl⟩

/-! ### The ranges of the parameters (R27) -/

theorem inRange_legalF32_unit (v : Word32) : inRange fZero fOne (legalF32 fZero fOne v) = true :=
  inRange_clampf v (by decide)

/-- A filter's two ranged parameters are in their ranges (R30). -/
def Flt.InRange (c : Config) (f : Flt) : Prop :=
  inRange fZero fOne f.cutoff = true ∧ inRange c.qMin c.qMax f.res = true

theorem kept_flt_inRange {c : Config} (hc : configLegal c = true) : Kept c .flt (Flt.InRange c) where
  hardReset := flt_hardReset_inRange hc
  start _ := id
  rule := by
    rintro s f f' - hf ⟨x, m, y, hr⟩
    cases hr
    exact hf
  update f g hg hf := by
    rw [eq_clearOf_of_mem (by decide) hg]
    exact hf
  set f reg v f' hf hset := by
    obtain ⟨hcutoff, hres⟩ := hf
    match reg with
    | 0 => cases hset; exact ⟨inRange_legalF32_unit v, hres⟩
    | 1 => cases hset; exact ⟨hcutoff, inRange_clampf v (fLe_qMin_qMax hc)⟩
    | 2 => cases hset; exact ⟨hcutoff, hres⟩
    | n + 3 => cases hset

theorem kept_rev_time (c : Config) : Kept c .rev fun r : Rev => inRange fZero fOne r.time = true where
  hardReset := inRange_unit_fOne
  start _ := id
  rule := by
    rintro s r r' - hr ⟨x, m, y, h⟩
    rwa [(stepRev_keeps (m := m) h).1]
  update r g hg hr := by
    rw [eq_clearOf_of_mem (by decide) hg]
    exact hr
  set r reg v r' hr hset := by
    match reg with
    | 1 => cases hset; exact inRange_legalF32_unit v
    | 0 | 2 | 3 | 4 | 5 | 6 | 7 | 8 => cases hset; exact hr
    | n + 9 => cases hset

theorem kept_pha_depth (c : Config) : Kept c .pha fun p : Pha => inRange fZero fOne p.depth = true where
  hardReset := inRange_unit_fZero
  start _ := id
  rule := by
    rintro s p p' - hp ⟨x, m, y, h⟩
    rwa [stepPha_depth h]
  update p g hg hp := by
    rw [eq_clearOf_of_mem (by decide) hg]
    exact hp
  set p reg v p' hp hset := by
    match reg with
    | 0 => cases hset; exact inRange_legalF32_unit v
    | 1 => cases hset; exact hp
    | n + 2 => cases hset

theorem kept_vib_depth (c : Config) : Kept c .vib fun v : Vib => inRange fZero fOne v.depth = true where
  hardReset := inRange_unit_fZero
  start v hv := by
    rw [startOf, rampVib_depth]
    exact hv
  rule := by
    rintro s v v' - hv ⟨x, m, y, h⟩
    rwa [stepVib_depth h]
  update v g hg hv := by
    rw [eq_clearOf_of_mem (by decide) hg]
    exact hv
  set v reg w v' hv hset := by
    match reg with
    | 0 => cases hset; exact inRange_legalF32_unit w
    | 1 => cases hset; exact hv
    | n + 2 => cases hset

theorem kept_trm_depth (c : Config) : Kept c .trm fun t : Trm => inRange fZero fOne t.depth = true where
  hardReset := inRange_unit_fZero
  start _ := id
  rule := by
    rintro s t t' - ht ⟨x, m, y, h⟩
    cases h
    exact ht
  update t g hg ht := by
    rw [eq_clearOf_of_mem (by decide) hg]
    exact ht
  set t reg v t' ht hset := by
    match reg with
    | 0 => cases hset; exact inRange_legalF32_unit v
    | 1 | 2 | 3 => cases hset; exact ht
    | n + 4 => cases hset

/-- Settles O17: the five classes with a ranged parameter, each by its own invariant. -/
theorem parameterRangesAreKept : Obligations.ParameterRangesAreKept := by
  rintro s t ⟨hflt, hrev, hpha, hvib, htrm⟩ h
  exact ⟨step_keeps (fun _ hc => kept_flt_inRange hc) h hflt,
    step_keeps (fun c _ => kept_rev_time c) h hrev,
    step_keeps (fun c _ => kept_pha_depth c) h hpha, step_keeps (fun c _ => kept_vib_depth c) h hvib,
    step_keeps (fun c _ => kept_trm_depth c) h htrm⟩

/-! ### Comparisons, sums and differences of finite numbers -/

theorem fLt_of_not_fLe {a b : F32} (ha : fIsNaN a = false) (hb : fIsNaN b = false)
    (h : fLe a b = false) : fLt b a = true := by
  rw [fLt_iff_fKey hb ha]
  rw [← Bool.not_eq_true, fLe_iff_fKey ha hb] at h
  omega

theorem fLe_of_fLt {a b : F32} (h : fLt a b = true) : fLe a b = true := by
  obtain ⟨ha, hb⟩ := fLt_notNaN h
  rw [fLe_iff_fKey ha hb]
  exact le_of_lt ((fLt_iff_fKey ha hb).1 h)

theorem fIsFinite_of_inRange {lo hi x : F32} (hlo : fIsFinite lo = true) (hhi : fIsFinite hi = true)
    (h : inRange lo hi x = true) : fIsFinite x = true := by
  rw [inRange, Bool.and_eq_true] at h
  exact finite_of_between h.1 h.2 hlo hhi

theorem fInt_fZero : fInt fZero = 0 := by decide

theorem fIsNaN_fAdd_finite {a b : F32} (ha : fIsFinite a = true) (hb : fIsFinite b = true) :
    fIsNaN (fAdd a b) = false := by rw [fAdd_finite ha hb, fAddFinite_not_nan]

theorem fIsNaN_fSub_finite {a b : F32} (ha : fIsFinite a = true) (hb : fIsFinite b = true) :
    fIsNaN (fSub a b) = false := by rw [fSub_finite ha hb, fAddFinite_not_nan]

/-- A finite number that is not negative has a value that is not negative. -/
theorem fLe_fZero_iff {x : F32} (hx : fIsFinite x = true) : fLe fZero x = true ↔ 0 ≤ fInt x := by
  rw [fLe_iff (by decide) (not_nan_of_finite hx), fInt_fZero]

/-- The sum of two numbers that are not negative is not negative. -/
theorem fLe_fZero_fAdd {a b : F32} (ha : fIsFinite a = true) (hb : fIsFinite b = true)
    (ha0 : fLe fZero a = true) (hb0 : fLe fZero b = true) : fLe fZero (fAdd a b) = true := by
  rw [fLe_fZero_iff ha] at ha0
  rw [fLe_fZero_iff hb] at hb0
  rw [fLe_iff (by decide) (fIsNaN_fAdd_finite ha hb), fAdd_finite ha hb]
  exact fInt_fAddFinite_ge (by decide) (by rw [fInt_fZero]; omega)

/-- Taking away what is not negative gives no more. -/
theorem fSub_fLe {a b : F32} (ha : fIsFinite a = true) (hb : fIsFinite b = true)
    (hb0 : fLe fZero b = true) : fLe (fSub a b) a = true := by
  rw [fLe_fZero_iff hb] at hb0
  rw [fLe_iff (fIsNaN_fSub_finite ha hb) (not_nan_of_finite ha), fSub_finite ha hb]
  exact fInt_fAddFinite_le ha (by rw [fInt_fNeg]; omega)

/-! ### The envelopes (R181) -/

section
variable {a b lo : F32} (ha : inRange fZero fOne a = true) (hb : inRange fZero fOne b = true)
include ha hb

/-- A sum of two levels that has not reached 1.0 is a level. -/
theorem inRange_fAdd_of_not_ge (h : fGe (fAdd a b) fOne = false) :
    inRange fZero fOne (fAdd a b) = true := by
  have hfa := fIsFinite_of_inRange (by decide) (by decide) ha
  have hfb := fIsFinite_of_inRange (by decide) (by decide) hb
  rw [inRange, Bool.and_eq_true] at *
  exact ⟨fLe_fZero_fAdd hfa hfb ha.1 hb.1,
    fLe_of_fLt (fLt_of_not_fLe (by decide) (fIsNaN_fAdd_finite hfa hfb) h)⟩

/-- A difference of two levels that has not reached a level below is a level. -/
theorem inRange_fSub_of_not_le (hlo : fLe fZero lo = true) (h : fLe (fSub a b) lo = false) :
    inRange fZero fOne (fSub a b) = true := by
  have hfa := fIsFinite_of_inRange (by decide) (by decide) ha
  have hfb := fIsFinite_of_inRange (by decide) (by decide) hb
  have hlt := fLt_of_not_fLe (fIsNaN_fSub_finite hfa hfb) (fLe_notNaN hlo).2 h
  rw [inRange, Bool.and_eq_true] at *
  exact ⟨fLe_trans hlo (fLe_of_fLt hlt), fLe_trans (fSub_fLe hfa hfb hb.1) ha.2⟩

end

/-- One step of the envelope keeps it in range: each phase ends at its level, or has not reached it. -/
theorem stepEnv_inRange {e : Env} (h : Env.InRange e) : Env.InRange (stepEnv e) := by
  obtain ⟨hatt, hdec, hsus, hrel, hctl⟩ := h
  unfold stepEnv
  split
  · unfold envAttack
    split
    · exact ⟨hatt, hdec, hsus, hrel, inRange_unit_fOne⟩
    · rename_i hlt
      exact ⟨hatt, hdec, hsus, hrel, inRange_fAdd_of_not_ge hctl hatt (by simpa using hlt)⟩
  · unfold envDecay
    split
    · exact ⟨hatt, hdec, hsus, hrel, hsus⟩
    · rename_i hgt
      have hsus0 : fLe fZero e.sustain = true := by
        rw [inRange, Bool.and_eq_true] at hsus
        exact hsus.1
      exact ⟨hatt, hdec, hsus, hrel, inRange_fSub_of_not_le hctl hdec hsus0 (by simpa using hgt)⟩
  · exact ⟨hatt, hdec, hsus, hrel, hctl⟩
  · unfold envRelease
    split
    · exact ⟨hatt, hdec, hsus, hrel, inRange_unit_fZero⟩
    · rename_i hgt
      exact ⟨hatt, hdec, hsus, hrel,
        inRange_fSub_of_not_le hctl hrel (fLe_refl (by decide)) (by simpa using hgt)⟩

theorem mem_updatesOf_env {f : Env → Env} (h : f ∈ updatesOf .env) :
    f = clearOf .env ∨ f = (fun e => { e with control := fZero, phase := .attack, active := true })
      ∨ f = (fun e => { e with phase := .release }) ∨ f = stepEnv := by
  simpa [updatesOf] using h

theorem kept_env_inRange (c : Config) : Kept c .env Env.InRange where
  hardReset := env_hardReset_inRange
  start _ := id
  rule := by
    rintro s e e' - he ⟨x, m, y, h⟩
    cases h
    exact stepEnv_inRange he
  update e f hf he := by
    obtain ⟨hatt, hdec, hsus, hrel, hctl⟩ := he
    rcases mem_updatesOf_env hf with rfl | rfl | rfl | rfl
    · exact ⟨hatt, hdec, hsus, hrel, inRange_unit_fZero⟩
    · exact ⟨hatt, hdec, hsus, hrel, inRange_unit_fZero⟩
    · exact ⟨hatt, hdec, hsus, hrel, hctl⟩
    · exact stepEnv_inRange ⟨hatt, hdec, hsus, hrel, hctl⟩
  set e reg v e' he hset := by
    obtain ⟨hatt, hdec, hsus, hrel, hctl⟩ := he
    have hv := inRange_legalF32_unit v
    match reg with
    | 0 => cases hset; exact ⟨hv, hdec, hsus, hrel, hctl⟩
    | 1 => cases hset; exact ⟨hatt, hv, hsus, hrel, hctl⟩
    | 2 => cases hset; exact ⟨hatt, hdec, hv, hrel, hctl⟩
    | 3 => cases hset; exact ⟨hatt, hdec, hsus, hv, hctl⟩
    | n + 4 => cases hset

/-- Settles O18: the envelope's invariant is kept by `SETP`, by its own commands and by every sample. -/
theorem envelopeControlStaysInRange : Obligations.EnvelopeControlStaysInRange :=
  fun _ _ hs h => step_keeps (fun c _ => kept_env_inRange c) h hs

end Sys2Proof.Machine
end

section
/-! SUPPORT. The coefficients of the filters and the limits of the reverbs are those of the current
parameters (R42, R165, R233): hard reset gives designed values in every legal configuration, each `SETP`
designs them again, and nothing else writes them. -/

namespace Sys2Proof.Machine

/-! ### The design at hard reset (R171) -/

theorem roundMag_zero {den : Nat} (h : 0 < den) : roundMag 0 den = 0 :=
  roundMag_exact h (Nat.zero_le _) (by rw [magUnits_zero, Nat.zero_mul])

/-- Twice a positive number is not a zero and is positive. -/
theorem fTwo_fMul_pos {q : F32} (hq : fIsFinite q = true) (h0 : fLt fZero q = true) :
    fIsNaN (fMul fTwo q) = false ∧ fSign (fMul fTwo q) = false ∧ fMag (fMul fTwo q) ≠ 0 := by
  have htwo : fIsFinite fTwo = true := by decide
  rw [fLt_iff (by decide) (not_nan_of_finite hq), fInt_fZero, fInt] at h0
  have hsign : fSign q = false := by
    cases hs : fSign q with
    | false => rfl
    | true => rw [hs, if_pos rfl] at h0; omega
  rw [hsign, if_neg Bool.false_ne_true] at h0
  have hge : 1 ≤ roundMag (fUnits fTwo * fUnits q) (2 ^ 149) := by
    refine roundMag_ge_of_ge (Nat.two_pow_pos 149) (by decide) ?_
    have h1 : magUnits 1 = 1 := by decide
    have h2 : fUnits fTwo = 2 ^ 150 := by decide
    rw [h1, h2]
    omega
  rw [fMul_finite htwo hq, hsign, fMag_fPack _ (roundMag_lt _ _), fSign_fPack _ (roundMag_lt _ _)]
  exact ⟨fPack_not_nan _ (roundMag_le _ _), by decide, by omega⟩

/-- Zero over a positive number is +0.0. -/
theorem fZero_fDiv_pos {x : F32} (hn : fIsNaN x = false) (hs : fSign x = false) (h0 : fMag x ≠ 0) :
    fDiv fZero x = fZero := by
  have hz : fIsFinite fZero = true := by decide
  have hzs : fSign fZero = false := by decide
  have hzu : fUnits fZero = 0 := by decide
  cases hi : fIsInf x with
  | true =>
    rw [fDiv_inf_right hi (not_nan_of_finite hz) (not_inf_of_finite hz), hzs, hs]
    rfl
  | false =>
    have hu : 0 < fUnits x := Nat.pos_of_ne_zero (mt fUnits_eq_zero.1 h0)
    simp only [fDiv, not_nan_of_finite hz, hn, not_inf_of_finite hz, hi, h0, Bool.or_self,
      Bool.false_eq_true, if_false, hzu, hzs, hs, Nat.zero_mul, roundMag_zero hu]
    rfl

theorem fltAlpha_fZero {q : F32} (hq : fIsFinite q = true) (h0 : fLt fZero q = true) :
    fltAlpha fZero q = fZero := by
  obtain ⟨hn, hs, hm⟩ := fTwo_fMul_pos hq h0
  exact fZero_fDiv_pos hn hs hm

/-- At the half period the low-pass design gives the reset coefficients, whatever the resonance. -/
theorem lowPassCoefs_half {q : F32} (hq : fIsFinite q = true) (h0 : fLt fZero q = true) :
    lowPassCoefs fZero fMinusOne q = ⟨fOne, fTwo, fOne, fTwo, fOne⟩ := by
  unfold lowPassCoefs
  rw [fltAlpha_fZero hq h0]
  decide +kernel

theorem fltSinePhase_fOne : fltSinePhase fOne = 0x80000000#32 := by decide +kernel

section
variable {c : Config} {n : Nat} (hn : c.wtBits = n + 2)
include hn

theorem wtLen_quarter : c.wtLen / 4 = 2 ^ n := by
  rw [Config.wtLen, hn, Nat.pow_add]
  exact Nat.mul_div_cancel _ (by decide)

/-- A phase of `m` quarter periods is entry `m` quarters of the table. -/
theorem tableIndex_quarters (hle : n ≤ 30) {p : Word32} {m : Nat} (hp : p.toNat = m * 2 ^ 30) :
    tableIndex c p = m * 2 ^ n := by
  have hsplit : (2 : Nat) ^ 30 = 2 ^ n * 2 ^ (30 - n) := by rw [← Nat.pow_add]; congr 1; omega
  rw [tableIndex, hn, hp, hsplit, ← Nat.mul_assoc, (by omega : 32 - (n + 2) = 30 - n)]
  exact Nat.mul_div_cancel _ (Nat.two_pow_pos _)

theorem fltSin_fOne (hle : n ≤ 30) : fltSin c fOne = fZero := by
  have hq := Nat.two_pow_pos n
  rw [fltSin, fltSinePhase_fOne, lookup, tableIndex_quarters hn hle (m := 2) (by decide), wavetable,
    wtLen_quarter hn, sineEntry, if_neg (by omega), if_pos (le_refl _), Nat.sub_self]
  rfl

theorem fltCos_fOne (hle : n ≤ 30) : fltCos c fOne = fMinusOne := by
  have hq := Nat.two_pow_pos n
  rw [fltCos, fltSinePhase_fOne, lookup, tableIndex_quarters hn hle (m := 3) (by decide), wavetable,
    wtLen_quarter hn, sineEntry, if_neg (by omega), if_neg (by omega), if_pos (le_refl _), sineQuarter,
    if_neg (by omega), if_pos (by omega)]
  rfl

end

theorem wtBits_of_configLegal {c : Config} (h : configLegal c = true) :
    2 ≤ c.wtBits ∧ c.wtBits ≤ 23 := by
  simp only [configLegal, tablesLegal, Bool.and_eq_true, decide_eq_true_eq] at h
  obtain ⟨⟨⟨-, hbits, -⟩, -⟩, -⟩ := h
  exact hbits

theorem qMin_of_configLegal {c : Config} (h : configLegal c = true) :
    fLt fZero c.qMin = true ∧ fIsFinite c.qMin = true := by
  simp only [configLegal, rangesLegal, Bool.and_eq_true] at h
  obtain ⟨-, ⟨⟨⟨⟨hpos, -⟩, hfin⟩, -⟩, -⟩, -⟩ := h
  exact ⟨hpos, hfin⟩

/-- The reset coefficients of a filter are those of its reset parameters, in every legal configuration
(R30, R171). -/
theorem redesign_hardReset {c : Config} (hc : configLegal c = true) :
    redesign c (Flt.hardReset c) = Flt.hardReset c := by
  obtain ⟨h2, h23⟩ := wtBits_of_configLegal hc
  obtain ⟨hpos, hfin⟩ := qMin_of_configLegal hc
  have hn : c.wtBits = c.wtBits - 2 + 2 := by omega
  have hdesign : designCoefs c .lowPass fOne c.qMin = ⟨fOne, fTwo, fOne, fTwo, fOne⟩ := by
    rw [designCoefs, fltSin_fOne hn (by omega), fltCos_fOne hn (by omega), lowPassCoefs_half hfin hpos]
  rw [redesign, Flt.hardReset, hdesign]
  rfl

/-! ### The invariant of each class -/

theorem kept_flt_designed {c : Config} (hc : configLegal c = true) :
    Kept c .flt fun f : Flt => redesign c f = f where
  hardReset := redesign_hardReset hc
  start _ := id
  rule := by
    rintro s f f' - hf ⟨x, m, y, hr⟩
    cases hr
    exact congrArg (fun g : Flt => { g with
      w0 := fAdd (fSub (fMul f.b1 x) (fMul f.a0 (fltOut f x))) f.w1
      w1 := fSub (fMul f.b2 x) (fMul f.a1 (fltOut f x)) }) hf
  update f g hg hf := by
    rw [eq_clearOf_of_mem (by decide) hg]
    exact congrArg (clearOf .flt) hf
  set f reg v f' _ hset := by
    match reg with
    | 0 | 1 | 2 => cases hset; rfl
    | n + 3 => cases hset

/-- The seven limits that a time gives (R233). -/
def timedLimits (c : Config) (time : F32) : List Nat :=
  [c.capRevCb0, c.capRevCb1, c.capRevCb2, c.capRevCb3, c.capRevAp0, c.capRevAp1, c.capRevAp2].map
    (revLimit time)

theorem retime_eq_self_iff {time : F32} {cap : Nat} {u : Line} :
    retime time cap u = u ↔ u.limit = revLimit time cap := by
  cases u
  simp [retime, eq_comm]

/-- A reverb is designed when its limits are those of its time. -/
theorem setRevTime_eq_self_iff {c : Config} {r : Rev} :
    setRevTime c r r.time = r ↔ revLimits r = timedLimits c r.time := by
  cases r
  simp [setRevTime, revLimits, timedLimits, retime_eq_self_iff]

theorem kept_rev_designed {c : Config} (hc : configLegal c = true) :
    Kept c .rev fun r : Rev => setRevTime c r r.time = r where
  hardReset := setRevTime_hardReset hc
  start _ := id
  rule := by
    rintro s r r' - hr ⟨x, m, y, h⟩
    obtain ⟨htime, hlimits⟩ := stepRev_keeps (m := m) h
    rw [setRevTime_eq_self_iff] at hr ⊢
    rw [htime, hlimits, hr]
  update r g hg hr := by
    rw [eq_clearOf_of_mem (by decide) hg]
    rw [setRevTime_eq_self_iff] at hr ⊢
    exact hr
  set r reg v r' hr hset := by
    rw [setRevTime_eq_self_iff] at hr ⊢
    match reg with
    | 1 => cases hset; rfl
    | 0 | 2 | 3 | 4 | 5 | 6 | 7 | 8 => cases hset; exact hr
    | n + 9 => cases hset

/-- Settles O20: the filters by their coefficients, the reverbs by their limits. -/
theorem coefficientsMatchParameters : Obligations.CoefficientsMatchParameters := by
  rintro s t ⟨hflt, hrev⟩ h
  exact ⟨step_keeps (fun _ hc => kept_flt_designed hc) h hflt,
    step_keeps (fun _ hc => kept_rev_designed hc) h hrev⟩

end Sys2Proof.Machine
end

section
/-! SUPPORT. The read position of the pitch shifter (R39, R270): one advance of at most 4.0 and at most
one wrap keep it in [0, CAP_PSH), rounding included. -/

namespace Sys2Proof.Machine

theorem psh_caps_of_configLegal {c : Config} (h : configLegal c = true) :
    8 ≤ c.capPsh ∧ c.capPsh ≤ 2 ^ 24 := by
  refine ⟨?_, (caps_of_configLegal h c.capPsh (by simp)).2⟩
  simp only [configLegal, capsLegal, Bool.and_eq_true, decide_eq_true_eq] at h
  obtain ⟨⟨-, ⟨-, h8⟩, -⟩, -⟩ := h
  exact h8

theorem speedMax_of_configLegal {c : Config} (h : configLegal c = true) :
    fLe fZero c.speedMax = true ∧ fLe c.speedMax fFour = true := by
  simp only [configLegal, rangesLegal, Bool.and_eq_true] at h
  obtain ⟨-, ⟨-, hpos⟩, hmax⟩ := h
  exact ⟨fLe_of_fLt hpos, hmax⟩

/-- A pattern between `cap + 4` and `2 * cap`: the sum of a position and a speed is rounded to at most
this, and what is left of it after the wrap, `d` at most, is below `cap`. Where `cap + 4` is no longer
exact, 3 * 2^23 is the pattern. -/
theorem exists_pattern_above {cap : Nat} (h8 : 8 ≤ cap) (h24 : cap ≤ 2 ^ 24) :
    ∃ (p : F32) (d : Nat), fIsFinite p = true ∧ d < cap
      ∧ ((cap + 4 : Nat) : Int) * 2 ^ 149 ≤ fInt p ∧ fInt p ≤ ((cap + d : Nat) : Int) * 2 ^ 149 := by
  rcases Nat.lt_or_ge (2 ^ 24) (cap + 4) with hgt | hle
  · have hp : fInt 0x4BC00000#32 = ((3 * 2 ^ 23 : Nat) : Int) * 2 ^ 149 := by decide
    exact ⟨0x4BC00000#32, 2 ^ 23 + 4, by decide, by omega, by rw [hp]; omega, by rw [hp]; omega⟩
  · have hp := fInt_u2f hle
    exact ⟨u2f (cap + 4), 4, (u2f_exact hle).2.2, by omega, by rw [hp]; push_cast; omega,
      by rw [hp]; push_cast; omega⟩

/-- The wrap of a position that has reached the end: the difference is rounded to at most `d`, so it
stays below the capacity. -/
theorem wrapped_inRange {pos : F32} {cap d : Nat} (h24 : cap ≤ 2 ^ 24) (hfin : fIsFinite pos = true)
    (hd : d < cap) (hge : fLe (u2f cap) pos = true) (hle : fInt pos ≤ ((cap + d : Nat) : Int) * 2 ^ 149) :
    fLe fZero (fSub pos (u2f cap)) = true ∧ fLt (fSub pos (u2f cap)) (u2f cap) = true := by
  have hcap := fInt_u2f h24
  have hfcap := (u2f_exact h24).2.2
  have hn := fIsNaN_fSub_finite hfin hfcap
  rw [fLe_iff (not_nan_of_finite hfcap) (not_nan_of_finite hfin), hcap] at hge
  rw [fLe_iff (by decide) hn, fLt_iff hn (not_nan_of_finite hfcap), fSub_finite hfin hfcap]
  have hd24 : d ≤ 2 ^ 24 := by omega
  have hlow : fInt fZero ≤ fInt (fAddFinite pos (fNeg (u2f cap))) :=
    fInt_fAddFinite_ge (by decide) (by rw [fInt_fNeg, hcap, fInt_fZero]; omega)
  have hhigh : fInt (fAddFinite pos (fNeg (u2f cap))) ≤ fInt (u2f d) := by
    refine fInt_fAddFinite_le (u2f_exact hd24).2.2 ?_
    rw [fInt_fNeg, hcap, fInt_u2f hd24]
    push_cast at *
    omega
  refine ⟨hlow, lt_of_le_of_lt hhigh ?_⟩
  rw [hcap, fInt_u2f hd24]
  exact_mod_cast Nat.mul_lt_mul_of_pos_right hd (Nat.two_pow_pos 149)

/-- One sample keeps the read position in [0, CAP_PSH) (R42, R270). -/
theorem pshAdvance_inRange {c : Config} (hc : configLegal c = true) {u : Psh} (h : Psh.InRange c u) :
    fLe fZero (pshAdvance c u) = true ∧ fLt (pshAdvance c u) (u2f c.capPsh) = true := by
  obtain ⟨hspeed, -, hlow, hhigh⟩ := h
  obtain ⟨h8, h24⟩ := psh_caps_of_configLegal hc
  have hfcap := (u2f_exact h24).2.2
  have hfpos := finite_of_between hlow (fLe_of_fLt hhigh) (by decide) hfcap
  have hfspeed := fIsFinite_of_inRange (by decide) (by decide) hspeed
  rw [inRange, Bool.and_eq_true] at hspeed
  have hsum0 := fLe_fZero_fAdd hfpos hfspeed hlow hspeed.1
  obtain ⟨p, d, hfp, hd, hpge, hple⟩ := exists_pattern_above h8 h24
  have hsum : fInt (fAdd u.rpos u.speed) ≤ fInt p := by
    have hfour : fInt fFour = 4 * 2 ^ 149 := by decide
    have hs := (fLe_iff (not_nan_of_finite hfspeed) (by decide)).1 hspeed.2
    have hr := (fLt_iff (not_nan_of_finite hfpos) (not_nan_of_finite hfcap)).1 hhigh
    rw [fInt_u2f h24] at hr
    rw [hfour] at hs
    rw [fAdd_finite hfpos hfspeed]
    refine fInt_fAddFinite_le hfp (le_trans ?_ hpge)
    push_cast at *
    omega
  have hn := fIsNaN_fAdd_finite hfpos hfspeed
  have hfsum : fIsFinite (fAdd u.rpos u.speed) = true :=
    finite_of_between hsum0 ((fLe_iff hn (not_nan_of_finite hfp)).2 hsum) (by decide) hfp
  unfold pshAdvance
  split
  · exact wrapped_inRange h24 hfsum hd ‹_› (le_trans hsum hple)
  · rename_i hlt
    exact ⟨hsum0, fLt_of_not_fLe (not_nan_of_finite hfcap) hn (Bool.eq_false_iff.2 hlt)⟩

theorem kept_psh_inRange {c : Config} (hc : configLegal c = true) : Kept c .psh (Psh.InRange c) where
  hardReset := psh_hardReset_inRange hc
  start _ := id
  rule := by
    rintro s u u' rfl hu ⟨x, m, y, h⟩
    obtain ⟨hspeed, hmix, hrpos⟩ := stepPsh_keeps (m := m) h
    rw [Psh.InRange, hspeed, hmix, hrpos]
    exact ⟨hu.1, hu.2.1, pshAdvance_inRange hc hu⟩
  update u g hg hu := by
    obtain ⟨hspeed, hmix, hlow, hhigh⟩ := hu
    obtain ⟨h8, h24⟩ := psh_caps_of_configLegal hc
    rw [eq_clearOf_of_mem (by decide) hg]
    exact ⟨hspeed, hmix, fLe_refl (by decide), fLt_fZero_u2f h24 (by omega)⟩
  set u reg v u' hu hset := by
    obtain ⟨hspeed, hmix, hrpos⟩ := hu
    match reg with
    | 0 =>
      cases hset
      obtain ⟨hpos, hmax⟩ := speedMax_of_configLegal hc
      have hv := inRange_clampf v hpos
      rw [inRange, Bool.and_eq_true] at hv
      refine ⟨?_, hmix, hrpos⟩
      rw [inRange, Bool.and_eq_true]
      exact ⟨hv.1, fLe_trans hv.2 hmax⟩
    | 1 => cases hset; exact ⟨hspeed, hmix, hrpos⟩
    | 2 => cases hset; exact ⟨hspeed, inRange_legalF32_unit v, hrpos⟩
    | n + 3 => cases hset

/-- Settles O19: the only writers of the read position are the advance of a sample and the resets. -/
theorem readPositionStaysInRange : Obligations.ReadPositionStaysInRange :=
  fun _ _ hs h => step_keeps (fun _ hc => kept_psh_inRange hc) h hs

end Sys2Proof.Machine
end

section
/-! SUPPORT. One step by the host's next action (R76, R80): an idle host, a command word (R103), the
sample port and the index it refuses (R312), each by its own equation. -/

namespace Sys2Proof.Machine

/-! ### The host's next action -/

section
variable {s : State}

theorem step_configuration (hc : configLegal s.cfg = false) : step s = .refused .configuration := by
  simp [step, hc]

theorem step_idle (hc : configLegal s.cfg = true) (hhost : s.host = []) : step s = .next s := by
  simp [step, hc, hhost]

theorem step_action {a : HostAction} {rest : List HostAction} (hc : configLegal s.cfg = true)
    (hhost : s.host = a :: rest) : step s = hostStep a { s with host := rest } := by
  simp [step, hc, hhost]

/-! ### A command word (R103) -/

theorem issue_decoded {cw : CmdWord} {i : Instr} (hf : statusFault s.status = false)
    (hi : decode cw = some i) : issue cw s = exec i { s with cmdPort := cw } := by
  simp [issue, hf, hi]

theorem issue_undecodable {cw : CmdWord} (hf : statusFault s.status = false)
    (hn : decode cw = none) : issue cw s = .next (raise .illegalOpcode { s with cmdPort := cw }) := by
  simp [issue, hf, hn]

/-! ### The sample port (R80, R312) -/

theorem samplePortInRange_eq_false_iff {c : Config} {i n : Nat} :
    samplePortInRange c i n = false ↔ c.nBlk ≤ i ∨ c.blockLen ≤ n := by
  rw [← Bool.not_eq_true, samplePortInRange_iff]
  omega

theorem hostStep_writeSample {i n : Nat} (v : F32) (hi : i < s.cfg.nBlk) (hn : n < s.cfg.blockLen) :
    hostStep (.writeSample i n v) s = .next (writeSample s i n v) :=
  if_pos (samplePortInRange_iff.2 ⟨hi, hn⟩)

theorem hostStep_readSample {i n : Nat} (hi : i < s.cfg.nBlk) (hn : n < s.cfg.blockLen) :
    hostStep (.readSample i n) s = .next { s with hostData := (readSample s i n).setWidth 64 } :=
  if_pos (samplePortInRange_iff.2 ⟨hi, hn⟩)

theorem hostStep_writeSample_refused {i n : Nat} (v : F32)
    (hout : s.cfg.nBlk ≤ i ∨ s.cfg.blockLen ≤ n) :
    hostStep (.writeSample i n v) s = .refused .samplePortIndex := by
  simp [hostStep, samplePortInRange_eq_false_iff.2 hout]

theorem hostStep_readSample_refused {i n : Nat} (hout : s.cfg.nBlk ≤ i ∨ s.cfg.blockLen ≤ n) :
    hostStep (.readSample i n) s = .refused .samplePortIndex := by
  simp [hostStep, samplePortInRange_eq_false_iff.2 hout]

end

/-- Settles O7: the step is `issue`, whose two cases are the two clauses. -/
theorem stepRunsTheDecodedCommand : Obligations.StepRunsTheDecodedCommand := by
  intro s cw rest hc hhost hf
  rw [step_action hc hhost, hostStep]
  exact ⟨fun i hi => issue_decoded hf hi, fun hn => issue_undecodable hf hn⟩

/-- Settles O9: each action by its equation; a write to the block memory is read back and leaves every
other word. -/
theorem hostPortActions : Obligations.HostPortActions := by
  refine ⟨fun s => step_configuration, fun s => step_idle, fun s rest hc => ⟨?_, ?_, ?_, ?_, ?_⟩⟩
  · intro i n v hhost
    rw [step_action hc hhost]
    refine ⟨fun hi hn => ⟨_, hostStep_writeSample v hi hn, rfl, ?_, fun a ha => ?_⟩,
      fun hout => hostStep_writeSample_refused v hout⟩
    · exact readSample_writeSample_same _ i n v
    · exact wordAt_wordPut_other s.blocks v ha
  · intro i n hhost
    rw [step_action hc hhost]
    exact ⟨fun hi hn => hostStep_readSample hi hn, fun hout => hostStep_readSample_refused hout⟩
  · exact step_action hc
  · exact step_action hc
  · exact step_action hc

end Sys2Proof.Machine
end

section
/-! SUPPORT. The two forms of a block operation (R81): `PROC` into a scratch block and `PROCI` run the same
rule in step, one sample at a time, since each sample is read before it is written. -/

namespace Sys2Proof.Machine

/-! ### Two block loops in step -/

/-- Where two loops of one rule stand before sample `n`: they have written the same samples to their
destinations, and the samples they have still to read are the same. -/
structure InStep (bD₁ bD₂ bS bM n : Nat) (s₁ s₂ : State) : Prop where
  cfg : s₁.cfg = s₂.cfg
  written : ∀ m, m < n → readSample s₁ bD₁ m = readSample s₂ bD₂ m
  source : ∀ m, n ≤ m → m < s₁.cfg.blockLen → readSample s₁ bS m = readSample s₂ bS m
  modulation : ∀ m, n ≤ m → m < s₁.cfg.blockLen → readSample s₁ bM m = readSample s₂ bM m

theorem inStep_zero (bD₁ bD₂ bS bM : Nat) (s : State) : InStep bD₁ bD₂ bS bM 0 s s :=
  ⟨rfl, fun _ hm => absurd hm (Nat.not_lt_zero _), fun _ _ _ => rfl, fun _ _ _ => rfl⟩

/-- A write at sample `n` leaves the other sample numbers of every block. -/
theorem readSample_writeSample_ne (s : State) (b d : Nat) {n m : Nat} (v : F32)
    (hn : n < s.cfg.blockLen) (hm : m < s.cfg.blockLen) (h : m ≠ n) :
    readSample (writeSample s d n v) b m = readSample s b m :=
  readSample_writeSample_other s v fun heq => h (blockIndex_inj hm hn heq).2

theorem inStep_writeSample {bD₁ bD₂ bS bM n : Nat} {s₁ s₂ : State} (h : InStep bD₁ bD₂ bS bM n s₁ s₂)
    (hn : n < s₁.cfg.blockLen) (y : F32) :
    InStep bD₁ bD₂ bS bM (n + 1) (writeSample s₁ bD₁ n y) (writeSample s₂ bD₂ n y) := by
  obtain ⟨hcfg, hwritten, hsource, hmodulation⟩ := h
  have hn₂ : n < s₂.cfg.blockLen := hcfg ▸ hn
  have hkeep (b₁ b₂ : Nat) {m : Nat} (hm : m < s₁.cfg.blockLen) (hne : m ≠ n)
      (heq : readSample s₁ b₁ m = readSample s₂ b₂ m) :
      readSample (writeSample s₁ bD₁ n y) b₁ m = readSample (writeSample s₂ bD₂ n y) b₂ m := by
    rw [readSample_writeSample_ne s₁ b₁ bD₁ y hn hm hne,
      readSample_writeSample_ne s₂ b₂ bD₂ y hn₂ (hcfg ▸ hm) hne, heq]
  refine ⟨hcfg, fun m hm => ?_, fun m hm hlt => ?_, fun m hm hlt => ?_⟩
  · by_cases hmn : m = n
    · rw [hmn, readSample_writeSample_same, readSample_writeSample_same]
    · exact hkeep bD₁ bD₂ (by omega) hmn (hwritten m (by omega))
  · exact hkeep bS bS hlt (by omega) (hsource m (by omega) hlt)
  · exact hkeep bM bM hlt (by omega) (hmodulation m (by omega) hlt)

/-- Loops of one rule that begin in step end in step, with one unit: each sample's rule is given the same
unit and the same samples, because it reads before it writes (R15). -/
theorem blockLoop_inStep {U : Type} {rule : SampleRule U} {bD₁ bD₂ bS bM k n : Nat} {u u₁ u₂ : U}
    {s₁ s₂ t₁ t₂ : State} (h : InStep bD₁ bD₂ bS bM n s₁ s₂) (hk : n + k ≤ s₁.cfg.blockLen)
    (h₁ : blockLoop rule bD₁ bS bM k n u s₁ = .ok (u₁, t₁))
    (h₂ : blockLoop rule bD₂ bS bM k n u s₂ = .ok (u₂, t₂)) :
    u₁ = u₂ ∧ InStep bD₁ bD₂ bS bM (n + k) t₁ t₂ := by
  induction k generalizing n u s₁ s₂ with
  | zero =>
    obtain ⟨rfl, rfl⟩ : u = u₁ ∧ s₁ = t₁ := by simpa [blockLoop] using h₁
    obtain ⟨rfl, rfl⟩ : u = u₂ ∧ s₂ = t₂ := by simpa [blockLoop] using h₂
    exact ⟨rfl, h⟩
  | succ k ih =>
    have hn : n < s₁.cfg.blockLen := by omega
    rw [blockLoop] at h₁ h₂
    rw [← h.source n le_rfl hn, ← h.modulation n le_rfl hn] at h₂
    cases hr : rule u (readSample s₁ bS n) (readSample s₁ bM n) with
    | error r => simp [hr] at h₁
    | ok p =>
      simp only [hr] at h₁ h₂
      rw [← Nat.succ_add_eq_add_succ]
      exact ih (inStep_writeSample h hn p.1) (by rw [writeSample_cfg]; omega) h₁ h₂

/-- What a block operation answers into each of two destinations, when both complete: the same unit and
the same samples. -/
theorem processBlock_twoDestinations {U : Type} {rule : SampleRule U} {put : State → U → State}
    {bD₁ bD₂ bS bM : Nat} {u : U} {s t₁ t₂ : State}
    (h₁ : processBlock rule put bD₁ bS bM u s = .next t₁)
    (h₂ : processBlock rule put bD₂ bS bM u s = .next t₂) :
    ∃ u' m₁ m₂, t₁ = put { s with blocks := m₁ } u' ∧ t₂ = put { s with blocks := m₂ } u'
      ∧ ∀ n, n < s.cfg.blockLen →
          readSample { s with blocks := m₁ } bD₁ n = readSample { s with blocks := m₂ } bD₂ n := by
  obtain ⟨u₁, s₁, hloop₁, rfl⟩ := processBlock_next h₁
  obtain ⟨u₂, s₂, hloop₂, rfl⟩ := processBlock_next h₂
  obtain ⟨-, hs₁, -⟩ := blockLoop_ok (by omega) hloop₁
  obtain ⟨-, hs₂, -⟩ := blockLoop_ok (by omega) hloop₂
  obtain ⟨rfl, hstep⟩ := blockLoop_inStep (inStep_zero bD₁ bD₂ bS bM s) (by omega) hloop₁ hloop₂
  refine ⟨u₁, s₁.blocks, s₂.blocks, ?_⟩
  rw [← hs₁, ← hs₂]
  exact ⟨rfl, rfl, fun n hn => hstep.written n (by omega)⟩

/-! ### The two forms of a class (R81) -/

/-- The block that stands as the modulation block of a rule: the one named, or the source where the class
reads none (R82). -/
def modulationOf (k : UnitClass) (bS bM : Nat) : Nat := bif usesModulation k then bM else bS

theorem exec_procOf_of_ne_osc {k : UnitClass} (hk : k ≠ .osc) (i bD bS bM : Nat) (s : State) :
    exec (procOf k i bD bS bM) s
      = blockUnit k i bD (otherBlocks k [bS] bM) bS (modulationOf k bS bM) s := by
  cases k with
  | osc => exact absurd rfl hk
  | _ => rfl

theorem exec_prociOf_of_ne_osc {k : UnitClass} (hk : k ≠ .osc) (i bX bM : Nat) (s : State) :
    exec (prociOf k i bX bM) s
      = blockUnit k i bX (otherBlocks k [] bM) bX (modulationOf k bX bM) s := by
  cases k with
  | osc => exact absurd rfl hk
  | _ => rfl

theorem forall_mem_otherBlocks {k : UnitClass} {bs : List Nat} {bM : Nat} {P : Nat → Prop} :
    (∀ b ∈ otherBlocks k bs bM, P b) ↔ (∀ b ∈ bs, P b) ∧ (usesModulation k = true → P bM) := by
  unfold otherBlocks
  cases usesModulation k <;> simp [or_imp, forall_and]

/-- A block operation with every check passed (R104, R120). -/
theorem blockUnit_passed {k : UnitClass} {i dst : Nat} {others : List Nat} {s : State} {u : UnitOf k}
    (hu : (s.unitsOf k)[i]? = some u) (hdst : dst < s.cfg.nBlk)
    (hothers : ∀ b ∈ others, b < s.cfg.nBlk ∧ b ≠ dst) (bS bM : Nat) :
    blockUnit k i dst others bS bM s
      = processBlock (ruleOf s k) (fun s' u' => putUnit k s' i u') dst bS bM (startOf k u) s := by
  rw [blockUnit, withInstance_some _ _ hu,
    withBlocks_ok _ (List.forall_mem_cons.2 ⟨hdst, fun b hb => (hothers b hb).1⟩),
    withoutAlias_ok _ _ fun h => (hothers dst h).2 rfl]

@[simp] theorem readSample_putUnit (k : UnitClass) (s : State) (i : Nat) (u : UnitOf k) (b n : Nat) :
    readSample (putUnit k s i u) b n = readSample s b n := by
  simp [readSample]

/-- The units do not depend on the block memory. -/
theorem units_putUnit_blocks (k : UnitClass) (s : State) (m₁ m₂ : WordMem) (i : Nat) (u : UnitOf k) :
    (putUnit k { s with blocks := m₁ } i u).units = (putUnit k { s with blocks := m₂ } i u).units := by
  cases k <;> rfl

/-- Settles O27: with the checks passed, both forms are one block operation with the same source, and
differ in its destination only. -/
theorem inPlaceEqualsOutOfPlace : Obligations.InPlaceEqualsOutOfPlace := by
  intro k s t₁ t₂ i bX bT bM hk hne hX hT hM hi hpop h₁ h₂
  have hlen : i < (s.unitsOf k).length := by rwa [populated_iff.1 hpop k]
  have hu := List.getElem?_eq_getElem hlen
  have hproc : ∀ b ∈ otherBlocks k [bX] bM, b < s.cfg.nBlk ∧ b ≠ bT :=
    forall_mem_otherBlocks.2 ⟨List.forall_mem_singleton.2 ⟨hX, hne⟩, fun huse =>
      let ⟨hlt, _, hMT⟩ := hM huse
      ⟨hlt, hMT⟩⟩
  have hproci : ∀ b ∈ otherBlocks k [] bM, b < s.cfg.nBlk ∧ b ≠ bX :=
    forall_mem_otherBlocks.2 ⟨List.forall_mem_nil _, fun huse =>
      let ⟨hlt, hMX, _⟩ := hM huse
      ⟨hlt, hMX⟩⟩
  rw [exec_procOf_of_ne_osc hk, blockUnit_passed hu hT hproc] at h₁
  rw [exec_prociOf_of_ne_osc hk, blockUnit_passed hu hX hproci] at h₂
  obtain ⟨u', m₁, m₂, rfl, rfl, hsamples⟩ := processBlock_twoDestinations h₁ h₂
  refine ⟨units_putUnit_blocks k s m₁ m₂ i u', fun n hn => ?_⟩
  rw [readSample_putUnit, readSample_putUnit, hsamples n hn]

end Sys2Proof.Machine
end

section
/-! SUPPORT. The encoding (R90 to R102): the two round trips between commands and words, and the opcode
table as the decoder's domain. -/

namespace Sys2Proof

open Laws

/-! ### Fields (R91) -/

theorem fits8_iff {n : Nat} : fits8 n = true ↔ n < 256 := decide_eq_true_iff

theorem cwOp_lt (cw : CmdWord) : cwOp cw < 256 := Nat.mod_lt _ (Nat.two_pow_pos 8)

theorem cwInst_lt (cw : CmdWord) : cwInst cw < 256 := Nat.mod_lt _ (Nat.two_pow_pos 8)

theorem cwRa_lt (cw : CmdWord) : cwRa cw < 256 := Nat.mod_lt _ (Nat.two_pow_pos 8)

theorem cwRb_lt (cw : CmdWord) : cwRb cw < 256 := Nat.mod_lt _ (Nat.two_pow_pos 8)

theorem cwImm_lt (cw : CmdWord) : cwImm cw < 2 ^ 32 := Nat.mod_lt _ (Nat.two_pow_pos 32)

/-- The class is the high half of the opcode byte. -/
theorem cwField_class (cw : CmdWord) : cwField cw 60 4 = cwOp cw / 16 := by
  unfold cwOp cwField
  omega

theorem eq_iff_fields (cw cw' : CmdWord) :
    cw = cw' ↔ cwOp cw = cwOp cw' ∧ cwInst cw = cwInst cw' ∧ cwRa cw = cwRa cw' ∧ cwRb cw = cwRb cw'
      ∧ cwImm cw = cwImm cw' := by
  constructor
  · rintro rfl
    exact ⟨rfl, rfl, rfl, rfl, rfl⟩
  · rintro ⟨hop, hinst, hra, hrb, himm⟩
    rw [← packCommand_fields cw, hop, hinst, hra, hrb, himm, packCommand_fields]

theorem cwField_and (cw cw' : CmdWord) (lo len : Nat) :
    cwField (cw &&& cw') lo len = cwField cw lo len &&& cwField cw' lo len := by
  simp only [cwField, BitVec.toNat_and, Nat.and_div_two_pow, Nat.and_mod_two_pow]

/-! ### Encoding, then decoding -/

theorem decode_encode {i : Instr} (h : WellFormed i = true) : decode (encode i) = some i := by
  cases i with
  | sysNop =>
    exact decode_packCommand (by decide) (by decide) (by decide) (by decide) (by decide)
  | sysGetp a | bufClr a =>
    exact decode_packCommand (by decide) (by decide) (fits8_iff.1 h) (by decide) (by decide)
  | bufCpy a b | bufAcc a b =>
    simp only [WellFormed, Bool.and_eq_true, fits8_iff] at h
    obtain ⟨ha, hb⟩ := h
    exact decode_packCommand (by decide) (by decide) ha hb (by decide)
  | sysSetp a v =>
    rw [encode, decode_packCommand (by decide) (by decide) (fits8_iff.1 h) (by decide) v.isLt]
    simp [decodeFields, zeroed]
  | oscProc i a b | fltProc i a b | envProc i a b | dlyProc i a b | cmbProc i a b | apfProc i a b
  | revProc i a b | pshProc i a b =>
    simp only [WellFormed, Bool.and_eq_true, fits8_iff] at h
    obtain ⟨⟨hi, ha⟩, hb⟩ := h
    exact decode_packCommand (by decide) hi ha hb (by decide)
  | oscProci i a | fltProci i a | envProci i a | dlyProci i a | cmbProci i a | apfProci i a
  | revProci i a | pshProci i a | oscGetp i a | fltGetp i a | envGetp i a | dlyGetp i a | cmbGetp i a
  | apfGetp i a | revGetp i a | phaGetp i a | vibGetp i a | trmGetp i a | pshGetp i a =>
    simp only [WellFormed, Bool.and_eq_true, fits8_iff] at h
    obtain ⟨hi, ha⟩ := h
    exact decode_packCommand (by decide) hi ha (by decide) (by decide)
  | oscReset i | fltReset i | envReset i | dlyReset i | cmbReset i | apfReset i | revReset i
  | phaReset i | vibReset i | trmReset i | pshReset i | envStart i | envRel i | envStep i =>
    exact decode_packCommand (by decide) (fits8_iff.1 h) (by decide) (by decide) (by decide)
  | oscSetp i a v | fltSetp i a v | envSetp i a v | dlySetp i a v | cmbSetp i a v | apfSetp i a v
  | revSetp i a v | phaSetp i a v | vibSetp i a v | trmSetp i a v | pshSetp i a v =>
    simp only [WellFormed, Bool.and_eq_true, fits8_iff] at h
    obtain ⟨hi, ha⟩ := h
    rw [encode, decode_packCommand (by decide) hi ha (by decide) v.isLt]
    simp [decodeFields, zeroed]
  | phaProc i a b m | vibProc i a b m | trmProc i a b m =>
    simp only [WellFormed, Bool.and_eq_true, fits8_iff] at h
    obtain ⟨⟨⟨hi, ha⟩, hb⟩, hm⟩ := h
    rw [encode, Nat.mod_eq_of_lt hm, decode_packCommand (by decide) hi ha hb (by omega)]
    simp [decodeFields, zeroed, hm]
  | phaProci i a m | vibProci i a m | trmProci i a m =>
    simp only [WellFormed, Bool.and_eq_true, fits8_iff] at h
    obtain ⟨⟨hi, ha⟩, hm⟩ := h
    rw [encode, Nat.mod_eq_of_lt hm, decode_packCommand (by decide) hi ha (by decide) (by omega)]
    simp [decodeFields, zeroed, hm]

/-! ### Decoding, then encoding -/

/-- What the decoder gives has operands that fit their fields, since they were fields, and every field
that it drops was zero (R101). -/
theorem wellFormed_and_encode_of_decodeFields {op inst ra rb imm : Nat} {i : Instr}
    (hinst : inst < 256) (hra : ra < 256) (hrb : rb < 256) (himm : imm < 2 ^ 32)
    (h : decodeFields op inst ra rb imm = some i) :
    WellFormed i = true ∧ encode i = packCommand op inst ra rb imm := by
  have hvalue : imm % 4294967296 = imm := Nat.mod_eq_of_lt himm
  unfold decodeFields at h
  split at h
  -- an opcode byte that no command has
  case h_65 => cases h
  -- each of the 64 opcode bytes, by what its must-be-zero test lets through
  all_goals
    obtain ⟨hzero, rfl⟩ := zeroed_eq_some h
    simp only [Bool.and_eq_true, beq_iff_eq, Nat.div_eq_zero_iff_lt (Nat.succ_pos 255)] at hzero
    simp [WellFormed, encode, fits8_iff, Nat.mod_eq_of_lt, *]

theorem wellFormed_and_encode_of_decode {cw : CmdWord} {i : Instr} (h : decode cw = some i) :
    WellFormed i = true ∧ encode i = cw := by
  rw [← packCommand_fields cw]
  exact wellFormed_and_encode_of_decodeFields (cwInst_lt cw) (cwRa_lt cw) (cwRb_lt cw) (cwImm_lt cw) h

/-! ### The rows of R100 -/

/-- The fields that the row's mask looks at, but for the opcode byte, are zero. -/
def OpRow.ZeroFields (r : OpRow) (inst ra rb imm : Nat) : Prop :=
  inst &&& cwInst r.mask = 0 ∧ ra &&& cwRa r.mask = 0 ∧ rb &&& cwRb r.mask = 0
    ∧ imm &&& cwImm r.mask = 0

theorem opcodeTable_opcode_masked : ∀ r ∈ opcodeTable, cwOp r.mask = 0xFF := by decide

theorem opcodeTable_pattern_fields : ∀ r ∈ opcodeTable,
    cwInst r.pattern = 0 ∧ cwRa r.pattern = 0 ∧ cwRb r.pattern = 0 ∧ cwImm r.pattern = 0 := by decide

theorem opcodeTable_class_lt : ∀ r ∈ opcodeTable, cwOp r.pattern / 16 < 0xD := by decide

theorem opcodeTable_mnemonics_nodup : (opcodeTable.map OpRow.mnemonic).Nodup := by decide

theorem row_eq_of_mnemonic {r r' : OpRow} (hr : r ∈ opcodeTable) (hr' : r' ∈ opcodeTable)
    (h : r.mnemonic = r'.mnemonic) : r = r' :=
  List.inj_on_of_nodup_map opcodeTable_mnemonics_nodup hr hr' h

/-- `AND` with `n` ones above `k` zeros keeps what stands above bit `k`. -/
theorem and_ones_shifted {x : Nat} (k n : Nat) (h : x < 2 ^ (k + n)) :
    x &&& (2 ^ n - 1) * 2 ^ k = x / 2 ^ k * 2 ^ k := by
  have hhigh : x / 2 ^ k < 2 ^ n := Nat.div_lt_of_lt_mul (by rwa [← Nat.pow_add])
  calc x &&& (2 ^ n - 1) * 2 ^ k
      = (x / 2 ^ k * 2 ^ k + x % 2 ^ k) &&& ((2 ^ n - 1) * 2 ^ k + 0) := by
        rw [Nat.div_add_mod', Nat.add_zero]
    _ = (x / 2 ^ k &&& 2 ^ n - 1) * 2 ^ k + (x % 2 ^ k &&& 0) :=
        and_split k _ _ _ _ (Nat.mod_lt _ (Nat.two_pow_pos k)) (Nat.two_pow_pos k)
    _ = x / 2 ^ k * 2 ^ k := by
        rw [Nat.and_two_pow_sub_one_of_lt_two_pow hhigh, Nat.and_zero, Nat.add_zero]

theorem and_byteMask {x : Nat} (h : x < 256) : x &&& 0xFF = x := by
  simpa using and_ones_shifted 0 8 h

theorem and_wordMask {x : Nat} (h : x < 2 ^ 32) : x &&& 0xFFFFFFFF = x := by
  simpa using and_ones_shifted 0 32 h

/-- The mask of an immediate whose low byte is a modulation block (R93). -/
theorem and_blockMask_eq_zero_iff {x : Nat} (h : x < 2 ^ 32) :
    x &&& 0xFFFFFF00 = 0 ↔ x < 256 := by
  have hmask : x &&& 0xFFFFFF00 = x / 256 * 256 := and_ones_shifted 8 24 h
  omega

theorem OpRow.covers_iff {r : OpRow} (hr : r ∈ opcodeTable) (cw : CmdWord) :
    r.covers cw = true ↔ cwOp cw = cwOp r.pattern
      ∧ r.ZeroFields (cwInst cw) (cwRa cw) (cwRb cw) (cwImm cw) := by
  obtain ⟨hinst, hra, hrb, himm⟩ := opcodeTable_pattern_fields r hr
  have hop : cwOp cw &&& cwOp r.mask = cwOp cw := by
    rw [opcodeTable_opcode_masked r hr, and_byteMask (cwOp_lt cw)]
  rw [OpRow.covers, beq_iff_eq, eq_iff_fields, hinst, hra, hrb, himm]
  unfold OpRow.ZeroFields
  rw [← hop]
  simp only [cwOp, cwInst, cwRa, cwRb, cwImm, cwField_and]

theorem zeroed_of_true (i : Instr) {ok : Bool} (h : ok = true) : zeroed ok i = some i := if_pos h

/-- Row by row: the must-be-zero test of the decoder looks at the fields that the row's mask looks
at. -/
theorem decodeFields_of_row {inst ra rb imm : Nat} (hinst : inst < 256) (hra : ra < 256)
    (hrb : rb < 256) (himm : imm < 2 ^ 32) : ∀ r ∈ opcodeTable, r.ZeroFields inst ra rb imm →
      ∃ i, decodeFields (cwOp r.pattern) inst ra rb imm = some i ∧ mnemonic i = r.mnemonic := by
  simp only [opcodeTable, opcodeRows1, opcodeRows2, opcodeRows3, opcodeRows4,
    List.forall_mem_append, List.forall_mem_cons, List.not_mem_nil,
    IsEmpty.forall_iff, implies_true, and_true]
  and_intros
  all_goals
    rintro ⟨zinst, zra, zrb, zimm⟩
    simp only [cwInst, cwRa, cwRb, cwImm, cwField, BitVec.toNat_ofNat, Nat.reducePow, Nat.reduceMod,
      Nat.reduceDiv, and_byteMask hinst, and_byteMask hra, and_byteMask hrb, and_wordMask himm,
      and_blockMask_eq_zero_iff himm] at zinst zra zrb zimm
    exact ⟨_, zeroed_of_true _ (by simp [*]), rfl⟩

open RowMatch in
/-- The 64 lemmas of `Laws/PerInstr` together. -/
theorem rowMatch : ∀ i : Instr, RowMatch.Statement i
  | .sysNop => sysNop | .sysSetp .. => sysSetp .. | .sysGetp .. => sysGetp ..
  | .bufClr .. => bufClr .. | .bufCpy .. => bufCpy .. | .bufAcc .. => bufAcc ..
  | .oscProc .. => oscProc .. | .oscProci .. => oscProci .. | .oscReset .. => oscReset ..
  | .oscSetp .. => oscSetp .. | .oscGetp .. => oscGetp ..
  | .fltProc .. => fltProc .. | .fltProci .. => fltProci .. | .fltReset .. => fltReset ..
  | .fltSetp .. => fltSetp .. | .fltGetp .. => fltGetp ..
  | .envProc .. => envProc .. | .envProci .. => envProci .. | .envReset .. => envReset ..
  | .envSetp .. => envSetp .. | .envGetp .. => envGetp .. | .envStart .. => envStart ..
  | .envRel .. => envRel .. | .envStep .. => envStep ..
  | .dlyProc .. => dlyProc .. | .dlyProci .. => dlyProci .. | .dlyReset .. => dlyReset ..
  | .dlySetp .. => dlySetp .. | .dlyGetp .. => dlyGetp ..
  | .cmbProc .. => cmbProc .. | .cmbProci .. => cmbProci .. | .cmbReset .. => cmbReset ..
  | .cmbSetp .. => cmbSetp .. | .cmbGetp .. => cmbGetp ..
  | .apfProc .. => apfProc .. | .apfProci .. => apfProci .. | .apfReset .. => apfReset ..
  | .apfSetp .. => apfSetp .. | .apfGetp .. => apfGetp ..
  | .revProc .. => revProc .. | .revProci .. => revProci .. | .revReset .. => revReset ..
  | .revSetp .. => revSetp .. | .revGetp .. => revGetp ..
  | .phaProc .. => phaProc .. | .phaProci .. => phaProci .. | .phaReset .. => phaReset ..
  | .phaSetp .. => phaSetp .. | .phaGetp .. => phaGetp ..
  | .vibProc .. => vibProc .. | .vibProci .. => vibProci .. | .vibReset .. => vibReset ..
  | .vibSetp .. => vibSetp .. | .vibGetp .. => vibGetp ..
  | .trmProc .. => trmProc .. | .trmProci .. => trmProci .. | .trmReset .. => trmReset ..
  | .trmSetp .. => trmSetp .. | .trmGetp .. => trmGetp ..
  | .pshProc .. => pshProc .. | .pshProci .. => pshProci .. | .pshReset .. => pshReset ..
  | .pshSetp .. => pshSetp .. | .pshGetp .. => pshGetp ..

theorem row_of_decode {cw : CmdWord} {i : Instr} (h : decode cw = some i) :
    ∃ r ∈ opcodeTable, r.mnemonic = mnemonic i ∧ r.covers cw = true := by
  obtain ⟨_, rfl⟩ := wellFormed_and_encode_of_decode h
  exact rowMatch i

theorem covers_iff_decode {r : OpRow} (hr : r ∈ opcodeTable) (cw : CmdWord) :
    r.covers cw = true ↔ ∃ i, decode cw = some i ∧ mnemonic i = r.mnemonic := by
  constructor
  · intro h
    obtain ⟨hop, hzero⟩ := (OpRow.covers_iff hr cw).1 h
    rw [decode, hop]
    exact decodeFields_of_row (cwInst_lt cw) (cwRa_lt cw) (cwRb_lt cw) (cwImm_lt cw) r hr hzero
  · rintro ⟨i, hdec, hname⟩
    obtain ⟨r', hr', hname', hcovers⟩ := row_of_decode hdec
    rwa [row_eq_of_mnemonic hr hr' (hname.symm.trans hname'.symm)]

theorem row_eq_of_covers {r r' : OpRow} {cw : CmdWord} (hr : r ∈ opcodeTable)
    (hr' : r' ∈ opcodeTable) (h : r.covers cw = true) (h' : r'.covers cw = true) : r = r' := by
  obtain ⟨i, hdec, hname⟩ := (covers_iff_decode hr cw).1 h
  obtain ⟨i', hdec', hname'⟩ := (covers_iff_decode hr' cw).1 h'
  obtain rfl : i = i' := Option.some.inj (hdec.symm.trans hdec')
  exact row_eq_of_mnemonic hr hr' (hname.symm.trans hname')

theorem decode_eq_none_of_uncovered {cw : CmdWord} (h : ∀ r ∈ opcodeTable, r.covers cw = false) :
    decode cw = none := by
  rw [Option.eq_none_iff_forall_ne_some]
  intro i hdec
  obtain ⟨r, hr, -, hcovers⟩ := row_of_decode hdec
  exact Bool.false_ne_true ((h r hr).symm.trans hcovers)

theorem uncovered_of_class {cw : CmdWord} (h : 0xD ≤ cwField cw 60 4) :
    ∀ r ∈ opcodeTable, r.covers cw = false := by
  intro r hr
  rw [← Bool.not_eq_true, OpRow.covers_iff hr]
  rintro ⟨hop, -⟩
  rw [cwField_class, hop] at h
  exact absurd (opcodeTable_class_lt r hr) (Nat.not_lt.2 h)

/-! ### The statements -/

/-- Settles O1: the fields of a packed word are what was packed, and each operand comes back from the
field that carries it. -/
theorem decodeOfEncode : Obligations.DecodeOfEncode := fun _ h => decode_encode h

/-- Settles O2: the decoder's cases, each inverted. -/
theorem encodeOfDecode : Obligations.EncodeOfDecode := fun _ _ h => wellFormed_and_encode_of_decode h

/-- Settles O3: a word that two rows cover decodes to one command, whose mnemonic is that of both. -/
theorem decodeFollowsOpcodeTable : Obligations.DecodeFollowsOpcodeTable :=
  ⟨rfl, fun _ _ _ hr hr' h h' => row_eq_of_covers hr hr' h h', fun _ hr cw => covers_iff_decode hr cw⟩

/-- Settles O4: a word that decodes is covered by the row of its command, and every row has a class
below 0xD. -/
theorem unmatchedWordsRaiseIllegalOpcode : Obligations.UnmatchedWordsRaiseIllegalOpcode :=
  ⟨fun _ _ hf h => Machine.issue_undecodable hf (decode_eq_none_of_uncovered h),
    fun _ h => uncovered_of_class h⟩

/-- Settles O5: the first word has every field zero; no row has the class of the second. -/
theorem allZeroAndAllOnesWords : Obligations.AllZeroAndAllOnesWords :=
  ⟨rfl, rfl, decode_eq_none_of_uncovered (uncovered_of_class (by decide))⟩

/-- Settles O6: fourteen closed words, each decoded. -/
theorem workedEncodingsDecode : Obligations.WorkedEncodingsDecode := by
  unfold Obligations.WorkedEncodingsDecode
  decide

end Sys2Proof
end

section
/-! SUPPORT. The `BUF` commands (R128, R129, R130): one block loop whose rule has no unit, so that each
sample of the destination is a function of two samples as they were before the command. -/

namespace Sys2Proof.Machine

section
variable {rule : SampleRule Unit} {f : F32 → F32 → F32}

/-- A block operation without a unit: each sample is read before it is written (R15), so the blocks may be
one and the same. -/
theorem processBlock_samplewise (hrule : ∀ x m, rule () x m = .ok (f x m, ())) (bD bS bM : Nat)
    (s : State) :
    ∃ t, processBlock rule (fun s' _ => s') bD bS bM () s = .next t ∧ t = { s with blocks := t.blocks }
      ∧ OnlyBlock bD s t ∧ ∀ n, n < s.cfg.blockLen →
          readSample t bD n = f (readSample s bS n) (readSample s bM n) := by
  obtain ⟨_, t, hnext, -, hsame, ⟨_, -, -, hsamples⟩, honly, -⟩ :=
    processBlock_spec (P := fun _ => True) (fun _ x m _ => ⟨f x m, (), hrule x m, trivial⟩)
      (fun s' _ => s') bD bS bM () s trivial
  refine ⟨t, hnext, hsame, honly, fun n hn => ?_⟩
  have hsample := (hrule _ _).symm.trans (hsamples n hn)
  exact (congrArg Prod.fst (Except.ok.inj hsample)).symm

/-- The same behind the check of the block fields (R104), where all are in range. -/
theorem withBlocks_samplewise (hrule : ∀ x m, rule () x m = .ok (f x m, ())) {fields : List Nat}
    {s : State} (hfields : ∀ b ∈ fields, b < s.cfg.nBlk) (bD bS bM : Nat) :
    ∃ t, withBlocks fields s (processBlock rule (fun s' _ => s') bD bS bM () s) = .next t
      ∧ t = { s with blocks := t.blocks } ∧ OnlyBlock bD s t ∧ ∀ n, n < s.cfg.blockLen →
          readSample t bD n = f (readSample s bS n) (readSample s bM n) := by
  rw [withBlocks_ok _ hfields]
  exact processBlock_samplewise hrule bD bS bM s

end

/-- Settles O26: the three commands are one block loop behind one check, each with its own function of the
source sample and the old destination sample. -/
theorem bufCommands : Obligations.BufCommands := by
  intro s
  refine ⟨fun bD hD => ?_, fun bD bS hD hS => ?_, fun bD hout => ?_, fun bD bS hout => ?_⟩
  · exact withBlocks_samplewise (rule := clearRule) (f := fun _ _ => fZero) (fun _ _ => rfl)
      (List.forall_mem_singleton.2 hD) bD bD bD
  · have hfields : ∀ b ∈ [bD, bS], b < s.cfg.nBlk := by simp [hD, hS]
    exact ⟨withBlocks_samplewise (rule := copyRule) (f := fun x _ => x) (fun _ _ => rfl) hfields bD bS bS,
      withBlocks_samplewise (rule := accumulateRule) (f := fun x old => fAdd old x) (fun _ _ => rfl)
        hfields bD bS bD⟩
  · exact withBlocks_illegal _ ⟨bD, List.mem_singleton_self bD, hout⟩
  · have hfields : ∃ b ∈ [bD, bS], s.cfg.nBlk ≤ b := by simpa using hout
    exact ⟨withBlocks_illegal _ hfields, withBlocks_illegal _ hfields⟩

end Sys2Proof.Machine
end

section
/-! SUPPORT. The wavetables (R141, R142): the quarters of the sine table, the tables whose entries are
exact fractions of the table length, and the index of a phase. -/

namespace Sys2Proof.Machine

/-! ### The sine of one quarter (R142) -/

theorem magUnits_onePattern : magUnits 0x3F800000 = 2 ^ 149 := by decide

/-- A ratio of at most 1 rounds to at most 1.0, with either sign. -/
theorem fMag_fOfRatio_le (neg : Bool) {num den : Nat} (hden : 0 < den) (h : num ≤ den) :
    fMag (fOfRatio neg num den) ≤ 0x3F800000 := by
  rw [fOfRatio, fMag_fPack neg (roundMag_lt _ _)]
  refine roundMag_le_of_le hden (by decide) ?_
  rw [magUnits_onePattern, Nat.mul_comm]
  exact Nat.mul_le_mul_left _ h

theorem fKey_fPack (neg : Bool) {m : Nat} (h : m < 2 ^ 31) :
    fKey (fPack neg m) = if neg then -(m : Int) else m := by
  rw [fKey, fSign_fPack neg h, fMag_fPack neg h]

/-- The sign flag turns the sign of the key over; a zero numerator gives +0.0 with either flag. -/
theorem fKey_sineQuarter_true (num den : Nat) :
    fKey (sineQuarter true num den) = -fKey (sineQuarter false num den) := by
  unfold sineQuarter
  by_cases hzero : num = 0
  · rw [if_pos hzero, if_pos hzero]
    decide
  by_cases htop : num = den
  · simp only [if_neg hzero, if_pos htop]
    decide
  · simp only [if_neg hzero, if_neg htop, fOfRatio, fKey_fPack _ (roundMag_lt _ _), if_true,
      Bool.false_eq_true, if_false]

/-- No entry of a quarter is above 1.0: the series is bounded by 1 before its rounding. -/
theorem fMag_sineQuarter_le (neg : Bool) (num den : Nat) :
    fMag (sineQuarter neg num den) ≤ 0x3F800000 := by
  unfold sineQuarter
  split
  · decide
  split
  · cases neg <;> decide
  · exact fMag_fOfRatio_le neg (Nat.two_pow_pos 160) (Nat.min_le_right _ _)

/-! ### The four quarters of the sine table (R142) -/

section
variable {q j : Nat}

theorem sineEntry_quarter1 (h : j ≤ q) : sineEntry q j = sineQuarter false j q := if_pos h

theorem sineEntry_quarter2 (h : q < j) (h' : j ≤ 2 * q) :
    sineEntry q j = sineQuarter false (2 * q - j) q := by
  rw [sineEntry, if_neg (by omega), if_pos h']

theorem sineEntry_quarter3 (h : 2 * q < j) (h' : j ≤ 3 * q) :
    sineEntry q j = sineQuarter true (j - 2 * q) q := by
  rw [sineEntry, if_neg (by omega), if_neg (by omega), if_pos h']

theorem sineEntry_quarter4 (h : 3 * q < j) : sineEntry q j = sineQuarter true (4 * q - j) q := by
  rw [sineEntry, if_neg (by omega), if_neg (by omega), if_neg (by omega)]

theorem fMag_sineEntry_le (q j : Nat) : fMag (sineEntry q j) ≤ 0x3F800000 := by
  unfold sineEntry
  repeat' split
  all_goals exact fMag_sineQuarter_le _ _ _

theorem sineEntry_zero (q : Nat) : sineEntry q 0 = fZero := by
  rw [sineEntry_quarter1 (Nat.zero_le q), sineQuarter, if_pos rfl]

theorem sineEntry_quarter (hq : 0 < q) : sineEntry q q = fOne := by
  rw [sineEntry_quarter1 le_rfl, sineQuarter, if_neg (by omega), if_pos rfl]
  rfl

theorem sineEntry_half (hq : 0 < q) : sineEntry q (2 * q) = fZero := by
  rw [sineEntry_quarter2 (by omega) le_rfl, Nat.sub_self, sineQuarter, if_pos rfl]

theorem sineEntry_threeQuarters (hq : 0 < q) : sineEntry q (3 * q) = fMinusOne := by
  rw [sineEntry_quarter3 (by omega) le_rfl, sineQuarter, if_neg (by omega), if_pos (by omega)]
  rfl

/-- Half a turn on, the first quarter comes back as the third and the second as the fourth, each with the
sign flag set; at 0 both entries are +0.0. -/
theorem fKey_sineEntry_halfTurn (hj : j < 2 * q) :
    fKey (sineEntry q (j + 2 * q)) = -fKey (sineEntry q j) := by
  rcases Nat.eq_zero_or_pos j with rfl | hpos
  · rw [Nat.zero_add, sineEntry_half (by omega), sineEntry_zero]
    decide
  rcases Nat.lt_or_ge q j with hsecond | hfirst
  · have hmirror : 4 * q - (j + 2 * q) = 2 * q - j := by omega
    rw [sineEntry_quarter4 (by omega), hmirror, sineEntry_quarter2 hsecond (by omega),
      fKey_sineQuarter_true]
  · rw [sineEntry_quarter3 (by omega) (by omega), Nat.add_sub_cancel, sineEntry_quarter1 hfirst,
      fKey_sineQuarter_true]

end

/-- A table of at least four entries has four quarters of one length. -/
theorem exists_quarter_of_wtLen {c : Config} (h : 2 ≤ c.wtBits) :
    ∃ q, 0 < q ∧ c.wtLen = 4 * q ∧ ∀ j, wavetable c .sine j = sineEntry q j := by
  have hquarter : c.wtLen / 4 = 2 ^ (c.wtBits - 2) := wtLen_quarter (by omega)
  refine ⟨2 ^ (c.wtBits - 2), Nat.two_pow_pos _, ?_, fun j => by rw [wavetable, hquarter]⟩
  rw [Config.wtLen, (by rfl : 4 = 2 ^ 2), ← Nat.pow_add, Nat.add_sub_cancel' h]

/-- Settles O23: with the quarter length, each clause is the lemma about its entries. -/
theorem sineTableShape : Obligations.SineTableShape := by
  intro c hbits
  obtain ⟨q, hq, hlen, hsine⟩ := exists_quarter_of_wtLen hbits
  have hone : c.wtLen / 4 = q := by omega
  have htwo : c.wtLen / 2 = 2 * q := by omega
  have hthree : 3 * c.wtLen / 4 = 3 * q := by omega
  simp only [hone, htwo, hthree, hsine]
  exact ⟨sineEntry_zero q, sineEntry_quarter hq, sineEntry_half hq, sineEntry_threeQuarters hq,
    fun j _ => fMag_sineEntry_le q j, fun _ hj => fKey_sineEntry_halfTurn hj⟩

/-! ### Exact fractions of the table length (R142) -/

/-- `x` is finite and its value is `v / n` without any rounding error. -/
def IsRatio (x : F32) (v : Int) (n : Nat) : Prop :=
  fIsFinite x = true ∧ fInt x * n = v * 2 ^ 149

/-- `b` exponent steps down divide the value of a normal pattern by `2 ^ b`. -/
theorem magUnits_sub_exponent {m b : Nat} (h : (b + 1) * 2 ^ 23 ≤ m) :
    magUnits (m - b * 2 ^ 23) * 2 ^ b = magUnits m := by
  have hfraction : (m - b * 2 ^ 23) % 2 ^ 23 = m % 2 ^ 23 := by omega
  have hexponent : (m - b * 2 ^ 23) / 2 ^ 23 - 1 + b = m / 2 ^ 23 - 1 := by omega
  rw [magUnits, magUnits, if_neg (by omega), if_neg (by omega), Nat.mul_assoc, ← Nat.pow_add,
    hfraction, hexponent]

/-- A whole number up to 2^24 over a power of two is the value of a finite pattern. -/
theorem exists_magUnits_ratio {num b : Nat} (hnum : num ≤ 2 ^ 24) (hb : b ≤ 126) :
    ∃ m, m < fInfMag ∧ magUnits m * 2 ^ b = num * 2 ^ 149 := by
  rcases Nat.eq_zero_or_pos num with rfl | hpos
  · exact ⟨0, by decide, by rw [magUnits_zero, Nat.zero_mul, Nat.zero_mul]⟩
  obtain ⟨m, hfin, hm⟩ := magUnits_ofNat hnum
  have hone : 0x3F800000 ≤ m := by
    rw [← magUnits_le_iff, magUnits_onePattern, hm]
    exact Nat.le_mul_of_pos_left _ hpos
  exact ⟨m - b * 2 ^ 23, by omega, (magUnits_sub_exponent (by omega)).trans hm⟩

section
variable {c : Config} (hle : c.wtBits ≤ 23)
include hle

/-- A fraction of the table length, at most 1 in magnitude, is exact in binary32. -/
theorem isRatio_fOfRatio_wtLen (neg : Bool) {num : Nat} {v : Int} (hnum : num ≤ c.wtLen)
    (hv : v = if neg then -(num : Int) else num) : IsRatio (fOfRatio neg num c.wtLen) v c.wtLen := by
  have hnum' : num ≤ 2 ^ 24 := hnum.trans (Nat.pow_le_pow_right (by decide) (by omega))
  obtain ⟨m, hfin, hm⟩ := exists_magUnits_ratio (b := c.wtBits) hnum' (by omega)
  have hround : roundMag (num * 2 ^ 149) c.wtLen = m :=
    roundMag_exact (Nat.two_pow_pos _) (le_of_lt hfin) hm.symm
  have hvalue : (magUnits m : Int) * c.wtLen = num * 2 ^ 149 := by exact_mod_cast hm
  rw [IsRatio, fOfRatio, hround, fInt_fPack neg (lt_trans hfin (by decide)), hv]
  refine ⟨fIsFinite_fPack neg hfin, ?_⟩
  cases neg with
  | false => exact hvalue
  | true => simpa only [if_true, Int.neg_mul, Int.neg_inj] using hvalue

theorem isRatio_sawEntry {j : Nat} (hj : j < c.wtLen) :
    IsRatio (sawEntry c.wtLen j) (2 * j - c.wtLen) c.wtLen := by
  unfold sawEntry
  split
  · exact isRatio_fOfRatio_wtLen hle true (by omega) (by rw [if_pos rfl]; omega)
  · exact isRatio_fOfRatio_wtLen hle false (by omega) (by rw [if_neg Bool.false_ne_true]; omega)

theorem isRatio_triEntry {j : Nat} (hj : j < c.wtLen) :
    IsRatio (triEntry c.wtLen j)
      (if j ≤ c.wtLen / 2 then (c.wtLen : Int) - 4 * j else 4 * j - 3 * c.wtLen) c.wtLen := by
  unfold triEntry
  by_cases hfall : j ≤ c.wtLen / 2
  · rw [if_pos hfall, if_pos hfall]
    split
    · exact isRatio_fOfRatio_wtLen hle false (by omega) (by rw [if_neg Bool.false_ne_true]; omega)
    · exact isRatio_fOfRatio_wtLen hle true (by omega) (by rw [if_pos rfl]; omega)
  · rw [if_neg hfall, if_neg hfall]
    split
    · exact isRatio_fOfRatio_wtLen hle true (by omega) (by rw [if_pos rfl]; omega)
    · exact isRatio_fOfRatio_wtLen hle false (by omega) (by rw [if_neg Bool.false_ne_true]; omega)

/-! ### The table index (R141) -/

/-- The top `WT_BITS` bits of a phase are an index of the table. -/
theorem tableIndex_lt_wtLen (p : Word32) : tableIndex c p < c.wtLen := by
  rw [tableIndex, Config.wtLen, Nat.div_lt_iff_lt_mul (Nat.two_pow_pos _), ← Nat.pow_add,
    (by omega : c.wtBits + (32 - c.wtBits) = 32)]
  exact p.isLt

end

theorem tableIndex_eq_toNat_shift (c : Config) (p : Word32) :
    tableIndex c p = (p >>> (32 - c.wtBits)).toNat := by
  rw [tableIndex, BitVec.toNat_ushiftRight, Nat.shiftRight_eq_div_pow]

/-- Settles O24: sawtooth and triangle are exact fractions of the table length; the other four tables are
what their definitions say. -/
theorem otherTablesAndIndex : Obligations.OtherTablesAndIndex := by
  intro c _ hle
  exact ⟨fun p => ⟨tableIndex_lt_wtLen hle p, tableIndex_eq_toNat_shift c p⟩,
    fun j hj => ⟨isRatio_sawEntry hle hj, isRatio_triEntry hle hj, rfl, rfl, rfl, rfl⟩⟩

end Sys2Proof.Machine
end

section
/-! SUPPORT. `OSC.PROC` and `OSC.PROCI` (R143, R144): behind their checks, one block operation that reads
and writes the destination. -/

namespace Sys2Proof.Machine

section
variable {s : State} {i : Nat} {o : Osc} (ho : s.osc[i]? = some o)
include ho

/-- With the checks passed, `OSC.PROC` runs its rule on its destination: the source is checked only. -/
theorem exec_oscProc_passed {bD bS : Nat} (hD : bD < s.cfg.nBlk) (hS : bS < s.cfg.nBlk) (hne : bD ≠ bS) :
    exec (.oscProc i bD bS) s
      = processBlock (stepOsc s.cfg s.octmul s.gpm) (fun s' o' => putOsc s' i o') bD bD bD o s :=
  blockUnit_passed (k := .osc) ho hD (List.forall_mem_singleton.2 ⟨hS, hne.symm⟩) bD bD

theorem exec_oscProci_passed {bX : Nat} (hX : bX < s.cfg.nBlk) :
    exec (.oscProci i bX) s
      = processBlock (stepOsc s.cfg s.octmul s.gpm) (fun s' o' => putOsc s' i o') bX bX bX o s :=
  blockUnit_passed (k := .osc) ho hX (List.forall_mem_nil _) bX bX

end

/-- The rule of the oscillator never stops, so its block operation has a result on any block. -/
theorem stepOsc_blockResult (s : State) (i : Nat) (o : Osc) (b : Nat) :
    BlockResult (stepOsc s.cfg s.octmul s.gpm) (fun s' o' => putOsc s' i o') b b b o s
      (processBlock (stepOsc s.cfg s.octmul s.gpm) (fun s' o' => putOsc s' i o') b b b o s) :=
  processBlock_blockResult (P := fun _ => True) b b b trivial (fun _ _ _ _ => ⟨_, _, rfl, trivial⟩)
    (fun _ _ _ => ⟨rfl, rfl, rfl, rfl⟩)

/-- Settles O28: `stepOsc` is the rule written out in the statement, and both commands are one block
operation on the destination. -/
theorem oscBlock : Obligations.OscBlock := by
  intro s i o ho rule
  have hrule : rule = stepOsc s.cfg s.octmul s.gpm := rfl
  rw [hrule]
  refine ⟨fun bD bS hD hS hne => ?proc, fun bX hX => ?proci⟩
  case proc =>
    rw [exec_oscProc_passed ho hD hS hne, exec_oscProci_passed ho hD]
    exact ⟨stepOsc_blockResult s i o bD, rfl⟩
  case proci =>
    rw [exec_oscProci_passed ho hX]
    exact stepOsc_blockResult s i o bX

end Sys2Proof.Machine
end

section
/-! SUPPORT. The filter: its block commands (R166 to R168), its design (R161 to R164), and the identity at
full cutoff (R171). -/

namespace Sys2Proof.Machine

/-! ### The block commands and the design -/

/-- Settles O30: `stepFlt` is the recurrence written out in the statement, and never stops. -/
theorem fltBlock : Obligations.FltBlock := by
  intro s i f hf rule
  have hrule : rule = stepFlt := rfl
  rw [hrule]
  have hruns : ∀ (u : Flt) (x m : F32), True → ∃ y u', stepFlt u x m = .ok (y, u') ∧ True :=
    fun _ _ _ _ => ⟨_, _, rfl, trivial⟩
  have hput : KeepsBlocks fun s' u' => putFlt s' i u' := fun _ _ _ => ⟨rfl, rfl, rfl, rfl⟩
  exact ⟨fun _ _ hD hS hne =>
      procUnit_blockResult (rule := fun _ => stepFlt) hf trivial hruns hput hD hS hne,
    fun _ hX => prociUnit_blockResult (rule := fun _ => stepFlt) hf trivial hruns hput hX⟩

/-- Settles O31: the design's definitions, unfolded, are the formulas of R161, R163 and R164. -/
theorem fltDesign : Obligations.FltDesign := fun _ _ _ => ⟨rfl, rfl⟩

/-! ### Keys, values and zeros -/

theorem natAbs_fKey (x : F32) : (fKey x).natAbs = fMag x := by
  rw [fKey]
  split <;> omega

/-- The sign of a nonzero pattern is the sign of its key. -/
theorem fSign_eq_of_fMag_ne_zero {x : F32} (h : fMag x ≠ 0) : fSign x = decide (fKey x < 0) := by
  rw [fKey]
  cases fSign x with
  | false => exact (decide_eq_false (by rw [if_neg Bool.false_ne_true]; omega)).symm
  | true => exact (decide_eq_true (by rw [if_pos rfl]; omega)).symm

/-- Patterns of one key have one magnitude, and are one pattern unless they are zeros. -/
theorem fMag_eq_and_eq_of_fKey {x y : F32} (h : fKey y = fKey x) :
    fMag y = fMag x ∧ (fMag x ≠ 0 → y = x) := by
  have hmag : fMag y = fMag x := by rw [← natAbs_fKey, h, natAbs_fKey]
  refine ⟨hmag, fun h0 => f32_ext ?_ hmag⟩
  rw [fSign_eq_of_fMag_ne_zero h0, fSign_eq_of_fMag_ne_zero (hmag ▸ h0), h]

theorem fInt_eq_zero_iff {x : F32} : fInt x = 0 ↔ fMag x = 0 := by
  rw [← fUnits_eq_zero, fInt]
  split <;> omega

/-! ### The design at full cutoff (R171) -/

/-- Nothing but +inf is positive and not finite. -/
theorem eq_posInf_of_pos {q : F32} (h0 : fLt fZero q = true) (hq : fIsFinite q = false) :
    q = 0x7F800000#32 := by
  obtain ⟨-, hnan⟩ := fLt_notNaN h0
  have hinf : fIsInf q = true := by
    simp only [fIsInf, fIsNaN, fIsFinite, decide_eq_true_eq, decide_eq_false_iff_not] at hnan hq ⊢
    omega
  rw [fLt_iff_fKey (by decide) hnan, (by decide : fKey fZero = 0)] at h0
  refine eq_of_inf_of_fSign hinf (by decide) ?_
  rw [fSign_eq_of_fMag_ne_zero (fMag_ne_zero_of_inf hinf), decide_eq_false (by omega)]
  decide

/-- At the half period the low-pass design gives the reset coefficients for every positive resonance, an
infinite one too: `alpha` is then zero over infinity, which is zero. -/
theorem lowPassCoefs_half_of_pos {q : F32} (h0 : fLt fZero q = true) :
    lowPassCoefs fZero fMinusOne q = ⟨fOne, fTwo, fOne, fTwo, fOne⟩ := by
  cases hq : fIsFinite q with
  | true => exact lowPassCoefs_half hq h0
  | false =>
    rw [eq_posInf_of_pos h0 hq]
    decide +kernel

/-- Settles O32: at full cutoff sin θ is 0 and cos θ is -1 whatever the table size, so the design is that
of the half period. -/
theorem fltDesignAtFullCutoff : Obligations.FltDesignAtFullCutoff := by
  intro c q h2 h23 h0
  have hn : c.wtBits = c.wtBits - 2 + 2 := by omega
  have hhalf : designCoefs c .lowPass fOne q = lowPassCoefs fZero fMinusOne q := by
    rw [designCoefs, fltSin_fOne hn (by omega), fltCos_fOne hn (by omega)]
  exact hhalf.trans (lowPassCoefs_half_of_pos h0)

/-! ### The identity at full cutoff (R171) -/

/-- Adding a zero keeps the value. -/
theorem fInt_fAdd_zero {x z : F32} (hx : fIsFinite x = true) (hz : fMag z = 0) :
    fInt (fAdd x z) = fInt x := by
  rw [fAdd_finite hx (finite_of_fMag_zero hz)]
  exact fInt_fAddFinite_exact hx (by rw [fInt_eq_zero_iff.2 hz, Int.add_zero])

theorem fMag_fAdd_zeros {a b : F32} (ha : fMag a = 0) (hb : fMag b = 0) : fMag (fAdd a b) = 0 := by
  rw [← fInt_eq_zero_iff, fInt_fAdd_zero (finite_of_fMag_zero ha) hb, fInt_eq_zero_iff, ha]

/-- Operands of one value cancel. -/
theorem fMag_fSub_of_fInt_eq {a b : F32} (ha : fIsFinite a = true) (hb : fIsFinite b = true)
    (h : fInt a = fInt b) : fMag (fSub a b) = 0 := by
  rw [fSub_finite_eq ha hb, fAdd_exact_zero ha (by rwa [fIsFinite_fNeg]) (by rw [fInt_fNeg]; omega)]
  exact fMag_fPack _ (by decide)

/-- Doubling a number below 2^127 in magnitude does not overflow. -/
theorem fIsFinite_fTwo_fMul {x : F32} (h : fMag x < 0x7F000000) : fIsFinite (fMul fTwo x) = true := by
  have hx : fIsFinite x = true := fIsFinite_iff.2 (h.trans (by decide))
  have hround : roundMag (fUnits fTwo * fUnits x) (2 ^ 149) ≤ 0x7F7FFFFF := by
    refine roundMag_le_of_le (Nat.two_pow_pos 149) (by decide) ?_
    have hle : fUnits x ≤ magUnits 0x7EFFFFFF := magUnits_le_iff.2 (by omega)
    calc fUnits fTwo * fUnits x ≤ fUnits fTwo * magUnits 0x7EFFFFFF := Nat.mul_le_mul_left _ hle
      _ = magUnits 0x7F7FFFFF * 2 ^ 149 := by decide
  rw [fMul_finite (by decide) hx]
  exact fIsFinite_fPack _ (lt_of_le_of_lt hround (by decide))

/-- A product that does not overflow cancels against the product with another pattern of the same key. -/
theorem fMag_fSub_fMul_of_fKey {c x y : F32} (hc : fIsFinite c = true) (hx : fIsFinite x = true)
    (hfin : fIsFinite (fMul c x) = true) (h : fKey y = fKey x) :
    fMag (fSub (fMul c x) (fMul c y)) = 0 := by
  obtain ⟨hmag, heq⟩ := fMag_eq_and_eq_of_fKey h
  by_cases h0 : fMag x = 0
  · have hy0 := hmag.trans h0
    have hcx := fMag_fMul_zero hc hx (.inr h0)
    have hcy := fMag_fMul_zero hc (finite_of_fMag_zero hy0) (.inr hy0)
    exact fMag_fSub_of_fInt_eq hfin (finite_of_fMag_zero hcy)
      ((fInt_eq_zero_iff.2 hcx).trans (fInt_eq_zero_iff.2 hcy).symm)
  · rw [heq h0]
    exact fMag_fSub_of_fInt_eq hfin hfin rfl

/-- Settles O33: the output is the sample plus a zero; each delay register is then the difference of two
products with one coefficient, in which sample and output cancel. -/
theorem fltIsTheIdentityAtFullCutoff : Obligations.FltIsTheIdentityAtFullCutoff := by
  intro f x m hb0 hb1 hb2 ha0 ha1 hw0 hw1 hx
  have hfin : fIsFinite x = true := fIsFinite_iff.2 (hx.trans (by decide))
  have hone : fMul fOne x = x := fOne_fMul hfin
  have hkey : fKey (fltOut f x) = fKey x := by
    rw [← fInt_eq_iff, fltOut, hb0]
    exact (congrArg (fun b => fInt (fAdd b f.w0)) hone).trans (fInt_fAdd_zero hfin hw0)
  obtain ⟨-, heq⟩ := fMag_eq_and_eq_of_fKey hkey
  refine ⟨fltOut f x, _, rfl, hkey, heq, ?w0, ?w1, rfl⟩
  case w0 =>
    rw [hb1, ha0]
    exact fMag_fAdd_zeros
      (fMag_fSub_fMul_of_fKey (c := fTwo) (by decide) hfin (fIsFinite_fTwo_fMul hx) hkey) hw1
  case w1 =>
    rw [hb2, ha1]
    exact fMag_fSub_fMul_of_fKey (c := fOne) (by decide) hfin (by rwa [hone]) hkey

end Sys2Proof.Machine
end

section
/-! SUPPORT. The envelope: its step arm by arm (R181), hold and termination (R190), and its block commands
(R183, R184). -/

namespace Sys2Proof.Machine

/-! ### One step, arm by arm (R181) -/

section
variable {e : Env}

theorem stepEnv_of_attack (h : e.phase = .attack) :
    stepEnv e = if fLe fOne (fAdd e.control e.attack)
      then { e with control := fOne, phase := .decay, active := true }
      else { e with control := fAdd e.control e.attack, active := true } := by
  simp only [stepEnv, h, envAttack, fGe, activeAfter]

theorem stepEnv_of_decay (h : e.phase = .decay) :
    stepEnv e = if fLe (fSub e.control e.decay) e.sustain
      then { e with control := e.sustain, phase := .sustain, active := true }
      else { e with control := fSub e.control e.decay, active := true } := by
  simp only [stepEnv, h, envDecay, activeAfter]

theorem stepEnv_of_sustain (h : e.phase = .sustain) : stepEnv e = { e with active := true } := by
  simp only [stepEnv, h, envSustain, activeAfter]

/-- `ACTIVE` is the negation of the test that picks the branch, so each branch has it as a constant. -/
theorem stepEnv_of_release (h : e.phase = .release) :
    stepEnv e = if fLe (fSub e.control e.release) fZero
      then { e with control := fZero, active := false }
      else { e with control := fSub e.control e.release, active := true } := by
  simp only [stepEnv, h, envRelease, activeAfter]
  cases fLe (fSub e.control e.release) fZero <;> rfl

end

/-- Settles O35: the phase picks the arm, and each arm is its equation above. -/
theorem envStepArms : Obligations.EnvStepArms := fun _ =>
  ⟨stepEnv_of_attack, stepEnv_of_decay, stepEnv_of_sustain, stepEnv_of_release⟩

/-! ### Hold and termination (R190) -/

/-- Adding a zero of either sign keeps the place in the order. -/
theorem fKey_fAdd_zero {x z : F32} (hx : fIsFinite x = true) (hz : fMag z = 0) :
    fKey (fAdd x z) = fKey x :=
  fInt_eq_iff.1 (fInt_fAdd_zero hx hz)

theorem fKey_fSub_zero {x z : F32} (hx : fIsFinite x = true) (hz : fMag z = 0) :
    fKey (fSub x z) = fKey x := by
  rw [fSub_finite_eq hx (finite_of_fMag_zero hz)]
  exact fKey_fAdd_zero hx (by rwa [fMag_fNeg])

/-- Patterns with the keys of `a < b` are not in the opposite order. -/
theorem not_fLe_of_fLt_of_fKey {a b a' b' : F32} (h : fLt a b = true) (ha : fKey a' = fKey a)
    (hb : fKey b' = fKey b) : ¬ fLe b' a' = true := by
  obtain ⟨hna, hnb⟩ := fLt_notNaN h
  have hlt := (fLt_iff_fKey hna hnb).1 h
  intro hle
  obtain ⟨hnb', hna'⟩ := fLe_notNaN hle
  have hge := (fLe_iff_fKey hnb' hna').1 hle
  omega

/-- Taking a number that is not negative from +0.0 leaves nothing above +0.0. -/
theorem fSub_fZero_fLe {r : F32} (h : inRange fZero fOne r = true) :
    fLe (fSub fZero r) fZero = true := by
  have hfin := fIsFinite_of_inRange (by decide) (by decide) h
  rw [inRange, Bool.and_eq_true] at h
  exact fSub_fLe (by decide) hfin h.1

/-- Settles O36: a zero rate leaves the key of the control value, so the test for the next phase fails as
it did before; in a finished release that test holds again. -/
theorem envHoldAndTermination : Obligations.EnvHoldAndTermination := by
  intro e ⟨_, _, _, hrel, hctl⟩
  have hfin : fIsFinite e.control = true := fIsFinite_of_inRange (by decide) (by decide) hctl
  refine ⟨fun hphase hzero (hlt : fLt e.control fOne = true) => ?attack,
    fun hphase hzero hlt => ?decay,
    fun hphase hzero (hlt : fLt fZero e.control = true) => ?release,
    fun hphase (hdone : e.control = fZero) => ?finished⟩
  case attack =>
    have hkey := fKey_fAdd_zero hfin hzero
    rw [stepEnv_of_attack hphase, if_neg (not_fLe_of_fLt_of_fKey hlt hkey rfl)]
    exact ⟨hphase, rfl, hkey⟩
  case decay =>
    have hkey := fKey_fSub_zero hfin hzero
    rw [stepEnv_of_decay hphase, if_neg (not_fLe_of_fLt_of_fKey hlt rfl hkey)]
    exact ⟨hphase, rfl, hkey⟩
  case release =>
    have hkey := fKey_fSub_zero hfin hzero
    rw [stepEnv_of_release hphase, if_neg (not_fLe_of_fLt_of_fKey hlt rfl hkey)]
    exact ⟨hphase, rfl, hkey⟩
  case finished =>
    rw [stepEnv_of_release hphase, hdone, if_pos (fSub_fZero_fLe hrel), ← hdone]

/-! ### The block commands (R183, R184) -/

/-- Settles O37: `scaleEnv` is the rule written out in the statement, and never stops. -/
theorem envBlock : Obligations.EnvBlock := by
  intro s i e he rule
  have hrule : rule = scaleEnv := rfl
  rw [hrule]
  have hruns : ∀ (u : Env) (x m : F32), True → ∃ y u', scaleEnv u x m = .ok (y, u') ∧ True :=
    fun _ _ _ _ => ⟨_, _, rfl, trivial⟩
  have hput : KeepsBlocks fun s' u' => putEnv s' i u' := fun _ _ _ => ⟨rfl, rfl, rfl, rfl⟩
  exact ⟨fun _ _ hD hS hne =>
      procUnit_blockResult (rule := fun _ => scaleEnv) he trivial hruns hput hD hS hne,
    fun _ hX => prociUnit_blockResult (rule := fun _ => scaleEnv) he trivial hruns hput hX⟩

end Sys2Proof.Machine
end

section
/-! SUPPORT. The delay line: what one sample computes and stores (R200), which earlier sample it reads
(R206), and the block commands (R201, R202). -/

namespace Sys2Proof.Machine

section
variable {c : Config} {d : Dly}

/-! ### Which sample is read (R206) -/

theorem dlyReadCursor_lt (h : Dly.Ok c d) : dlyReadCursor c d < c.capDly := mod_lt_of_lt h.1

/-- From the read cursor it is `LENGTH - 1` steps around the buffer to the write cursor. -/
theorem dlyReadCursor_add (h : Dly.Ok c d) (hlen : 1 ≤ d.length) :
    (dlyReadCursor c d + (d.length - 1)) % c.capDly = d.wcur := by
  obtain ⟨hcur, hcap, -⟩ := h
  have hsteps : d.wcur + 1 + c.capDly - d.length + (d.length - 1) = d.wcur + c.capDly := by omega
  rw [dlyReadCursor, Nat.mod_add_mod, hsteps, Nat.add_mod_right, Nat.mod_eq_of_lt hcur]

/-- With `LENGTH` 0 the read cursor is the slot that the next sample overwrites, the oldest. -/
theorem dlyReadCursor_of_length_zero (hlen : d.length = 0) :
    dlyReadCursor c d = (d.wcur + 1) % c.capDly := by
  rw [dlyReadCursor, hlen, Nat.sub_zero, Nat.add_mod_right]

/-! ### One sample (R200) -/

/-- The delayed sample: the write comes first, so where the cursors meet the read finds it. -/
def dlyDelayed (c : Config) (d : Dly) (x : F32) : F32 :=
  if dlyReadCursor c d = d.wcur then fMul x d.inLevel else wordOrZero d.buf (dlyReadCursor c d)

/-- The buffer after one sample: the scaled sample is stored, then replaced by its sum with the
feedback. -/
def dlyMixed (c : Config) (d : Dly) (x : F32) : WordMem :=
  wordStore (wordStore d.buf d.wcur (fMul x d.inLevel)) d.wcur
    (fAdd (fMul x d.inLevel) (fMul (dlyDelayed c d x) d.feedback))

/-- The second store covers the first, so only the slot under the write cursor changes. -/
theorem wordOrZero_dlyMixed (x : F32) (h : Dly.Ok c d) (a : Nat) :
    wordOrZero (dlyMixed c d x) a
      = if a = d.wcur then fAdd (fMul x d.inLevel) (fMul (dlyDelayed c d x) d.feedback)
        else wordOrZero d.buf a := by
  obtain ⟨hcur, -, hwf⟩ := h
  rw [dlyMixed, wordOrZero_wordStore _ _ _ (memory_wf_wordStore _ hwf hcur)]
  by_cases ha : a = d.wcur
  · rw [if_pos ha, if_pos ha]
  · rw [if_neg ha, if_neg ha, wordOrZero_wordStore _ _ _ hwf, if_neg ha]

/-- Within its bounds the rule makes all four buffer accesses of R200 and answers. -/
theorem stepDly_eq (x m : F32) (h : Dly.Ok c d) :
    stepDly c d x m = .ok (fAdd x (fMul (dlyDelayed c d x) d.outLevel),
      { d with buf := dlyMixed c d x, wcur := (d.wcur + 1) % c.capDly }) := by
  have hr := dlyReadCursor_lt h
  obtain ⟨hcur, -, hwf⟩ := h
  have hread : ∀ a, wordOrZero (wordStore d.buf d.wcur (fMul x d.inLevel)) a
      = if a = d.wcur then fMul x d.inLevel else wordOrZero d.buf a :=
    fun a => wordOrZero_wordStore _ a _ hwf
  rw [stepDly, memWrite_of_lt _ _ hcur, except_bind_ok, memRead_of_lt _ hr, except_bind_ok,
    memRead_of_lt _ hcur, except_bind_ok, memWrite_of_lt _ _ hcur, except_bind_ok, hread, hread,
    if_pos rfl]
  rfl

end

/-- Settles O39: the rule's equation, the words of the buffer it leaves, and the two distances of the read
cursor. -/
theorem dlySample : Obligations.DlySample := fun _ _ x m h =>
  ⟨⟨_, stepDly_eq x m h, rfl, wordOrZero_dlyMixed x h⟩, dlyReadCursor_add h,
    dlyReadCursor_of_length_zero⟩

/-! ### The block commands (R201, R202) -/

/-- Settles O40: the rule answers from every delay within its bounds and leaves one, so the two block
commands have a result. -/
theorem dlyBlock : Obligations.DlyBlock := by
  intro s i d hd hok
  have hput : KeepsBlocks fun s' u' => putDly s' i u' := fun _ _ _ => ⟨rfl, rfl, rfl, rfl⟩
  exact ⟨fun _ _ hD hS hne => procUnit_blockResult hd hok stepDly_ok hput hD hS hne,
    fun _ hX => prociUnit_blockResult hd hok stepDly_ok hput hX⟩

end Sys2Proof.Machine
end

section
/-! SUPPORT. The comb and the allpass: one sample (R210, R216) and the block commands (R211, R212, R217,
R218). -/

namespace Sys2Proof.Machine

section
variable {cap : Nat} {u : Line}

/-! ### One sample (R210, R216) -/

/-- What one sample leaves of a comb or an allpass: `v` in the slot under the cursor, and the cursor moved
on within the limit. -/
def lineStored (u : Line) (v : F32) : Line :=
  { u with buf := wordStore u.buf u.cur v, cur := (u.cur + 1) % u.limit }

/-- Only the slot that was under the cursor changes. -/
theorem wordOrZero_lineStored (v : F32) (h : Line.Ok cap u) (a : Nat) :
    wordOrZero (lineStored u v).buf a = if a = u.cur then v else wordOrZero u.buf a := by
  obtain ⟨-, -, -, hwf⟩ := h
  exact wordOrZero_wordStore _ a v hwf

/-- The comb answers the word as it stood, and stores its sum with the input. -/
theorem combStep_eq (x : F32) (h : Line.Ok cap u) :
    combStep cap u x = .ok (wordOrZero u.buf u.cur,
      lineStored u (fAdd (fMul (wordOrZero u.buf u.cur) u.gain) x)) := by
  obtain ⟨-, -, hcur, -⟩ := h
  rw [combStep, memRead_of_lt _ hcur, except_bind_ok, memWrite_of_lt _ _ hcur, except_bind_ok,
    lineStored]

/-- The allpass answers its readback, and stores the word made from that readback. -/
theorem apfStep_eq (x : F32) (h : Line.Ok cap u) :
    apfStep cap u x = .ok (allpassOut (wordOrZero u.buf u.cur) u.gain x,
      lineStored u (allpassNew (wordOrZero u.buf u.cur) u.gain x)) := by
  obtain ⟨-, -, hcur, -⟩ := h
  rw [apfStep, memRead_of_lt _ hcur, except_bind_ok, memWrite_of_lt _ _ hcur, except_bind_ok,
    lineStored]

end

/-- Settles O42: the rule's equation, and the one word of the buffer it changes. -/
theorem combSample : Obligations.CombSample := fun _ _ x h =>
  ⟨_, combStep_eq x h, rfl, wordOrZero_lineStored _ h⟩

/-- Settles O43: the rule's equation, and the one word of the buffer it changes; `allpassOut` is the
readback of R216 and `allpassNew` the word stored. -/
theorem allpassSample : Obligations.AllpassSample := fun _ _ x h =>
  ⟨_, apfStep_eq x h, rfl, wordOrZero_lineStored _ h⟩

/-! ### The block commands (R211, R212, R217, R218) -/

/-- Formats P and I of one class with every check passed (R93, R94). -/
theorem procUnit_and_prociUnit_blockResult {U : Type} {units : List U} {put : State → Nat → U → State}
    {rule : Config → SampleRule U} {P : U → Prop} {i : Nat} {u : U} {s : State}
    (hu : units[i]? = some u) (hP : P u)
    (hrule : ∀ u x m, P u → ∃ y u', rule s.cfg u x m = .ok (y, u') ∧ P u')
    (hput : KeepsBlocks fun s' u' => put s' i u') :
    (∀ bD bS, bD < s.cfg.nBlk → bS < s.cfg.nBlk → bD ≠ bS →
        BlockResult (rule s.cfg) (fun s' u' => put s' i u') bD bS bS u s
          (procUnit units put rule i bD bS s))
      ∧ ∀ bX, bX < s.cfg.nBlk →
        BlockResult (rule s.cfg) (fun s' u' => put s' i u') bX bX bX u s
          (prociUnit units put rule i bX s) :=
  ⟨fun _ _ hD hS hne => procUnit_blockResult hu hP hrule hput hD hS hne,
    fun _ hX => prociUnit_blockResult hu hP hrule hput hX⟩

/-- Settles O45: each of the two rules answers from every line within its bounds and leaves one, so the
block commands of both classes have a result. -/
theorem combAllpassBlock : Obligations.CombAllpassBlock := by
  refine ⟨fun s i u hu hok => ?cmb, fun s i u hu hok => ?apf⟩
  case cmb =>
    have hruns : ∀ (u : Line) (x m : F32), Line.Ok s.cfg.capCmb u →
        ∃ y u', stepCmb s.cfg u x m = .ok (y, u') ∧ Line.Ok s.cfg.capCmb u' :=
      fun u x _ => combStep_ok u x
    exact procUnit_and_prociUnit_blockResult (put := putCmb) hu hok hruns
      fun _ _ _ => ⟨rfl, rfl, rfl, rfl⟩
  case apf =>
    have hruns : ∀ (u : Line) (x m : F32), Line.Ok s.cfg.capApf u →
        ∃ y u', stepApf s.cfg u x m = .ok (y, u') ∧ Line.Ok s.cfg.capApf u' :=
      fun u x _ => apfStep_ok u x
    exact procUnit_and_prociUnit_blockResult (put := putApf) hu hok hruns
      fun _ _ _ => ⟨rfl, rfl, rfl, rfl⟩

end Sys2Proof.Machine
end

section
/-! SUPPORT. The reverb network: one sample (R230), the block commands (R231, R232), and the bound on the
words of a comb without input (R236). -/

namespace Sys2Proof.Machine

/-! ### One sample (R230) -/

/-- Given what each of its seven lines does, the network answers the dry input plus the scaled end of the
chain, and keeps what each line's step left. -/
theorem stepRev_of_steps {c : Config} {r : Rev} {x m y0 y1 y2 y3 z0 z1 z2 : F32}
    {c0 c1 c2 c3 a0 a1 a2 : Line}
    (hc0 : combStep c.capRevCb0 r.cb0 x = .ok (y0, c0))
    (hc1 : combStep c.capRevCb1 r.cb1 x = .ok (y1, c1))
    (hc2 : combStep c.capRevCb2 r.cb2 x = .ok (y2, c2))
    (hc3 : combStep c.capRevCb3 r.cb3 x = .ok (y3, c3))
    (ha0 : apfStep c.capRevAp0 r.ap0 (combSum y0 y1 y2 y3) = .ok (z0, a0))
    (ha1 : apfStep c.capRevAp1 r.ap1 z0 = .ok (z1, a1))
    (ha2 : apfStep c.capRevAp2 r.ap2 z1 = .ok (z2, a2)) :
    stepRev c r x m
      = .ok (fAdd x (fMul z2 r.level), ⟨r.level, r.time, c0, c1, c2, c3, a0, a1, a2⟩) := by
  simp only [stepRev, hc0, hc1, hc2, hc3, ha0, ha1, ha2, except_bind_ok]

/-- Settles O47: each line within its bounds has a step, each allpass on the output of the one before it,
and these steps make up the network's. -/
theorem revSample : Obligations.RevSample := by
  intro c r x m ⟨h0, h1, h2, h3, h4, h5, h6⟩
  obtain ⟨y0, c0, hc0, -⟩ := combStep_ok r.cb0 x h0
  obtain ⟨y1, c1, hc1, -⟩ := combStep_ok r.cb1 x h1
  obtain ⟨y2, c2, hc2, -⟩ := combStep_ok r.cb2 x h2
  obtain ⟨y3, c3, hc3, -⟩ := combStep_ok r.cb3 x h3
  obtain ⟨z0, a0, ha0, -⟩ := apfStep_ok r.ap0 (combSum y0 y1 y2 y3) h4
  obtain ⟨z1, a1, ha1, -⟩ := apfStep_ok r.ap1 z0 h5
  obtain ⟨z2, a2, ha2, -⟩ := apfStep_ok r.ap2 z1 h6
  exact ⟨y0, y1, y2, y3, z0, z1, z2, c0, c1, c2, c3, a0, a1, a2, hc0, hc1, hc2, hc3, ha0, ha1, ha2,
    stepRev_of_steps hc0 hc1 hc2 hc3 ha0 ha1 ha2⟩

/-! ### The block commands (R231, R232) -/

/-- Settles O48: the network answers from every reverb within its bounds and leaves one, so the two block
commands have a result. -/
theorem revBlock : Obligations.RevBlock := by
  intro s i r hr hok
  have hruns : ∀ (u : Rev) (x m : F32), Rev.Ok s.cfg u →
      ∃ y u', stepRev s.cfg u x m = .ok (y, u') ∧ Rev.Ok s.cfg u' := by
    intro u x m hu
    obtain ⟨y, u', hstep, hok', -⟩ := stepRev_ok u x m hu
    exact ⟨y, u', hstep, hok'⟩
  exact procUnit_and_prociUnit_blockResult (put := putRev) hr hok hruns
    fun _ _ _ => ⟨rfl, rfl, rfl, rfl⟩

/-! ### A comb without input (R236) -/

/-- A number in [0, 1] has at most the units of 1.0. -/
theorem fUnits_le_of_inRange_unit {g : F32} (h : inRange fZero fOne g = true) :
    fUnits g ≤ 2 ^ 149 := by
  rw [inRange, Bool.and_eq_true] at h
  obtain ⟨hlo, hhi⟩ := h
  obtain ⟨hzero, hnan⟩ := fLe_notNaN hlo
  obtain ⟨-, hone⟩ := fLe_notNaN hhi
  rw [fLe_iff_fKey hzero hnan, (by decide : fKey fZero = 0)] at hlo
  rw [fLe_iff_fKey hnan hone] at hhi
  rw [← fUnits_fOne, fUnits_le_iff, ← natAbs_fKey g, ← natAbs_fKey fOne]
  omega

/-- The word that a comb stores on +0.0: scaling by a gain in [0, 1] does not enlarge it, and the sum
with a zero keeps its magnitude. -/
theorem fMag_comb_word_le {w g : F32} (hw : fIsFinite w = true) (hg : inRange fZero fOne g = true) :
    fMag (fAdd (fMul w g) fZero) ≤ fMag w := by
  have hgfin : fIsFinite g = true := fIsFinite_of_inRange (by decide) (by decide) hg
  have hscaled : fMag (fMul w g) ≤ fMag w := fMag_fMul_le hw hgfin (fUnits_le_of_inRange_unit hg)
  have hfin : fIsFinite (fMul w g) = true :=
    fIsFinite_iff.2 (lt_of_le_of_lt hscaled (fIsFinite_iff.1 hw))
  have hsum : fKey (fAdd (fMul w g) fZero) = fKey (fMul w g) := fKey_fAdd_zero hfin (by decide)
  calc fMag (fAdd (fMul w g) fZero)
      = fMag (fMul w g) := (fMag_eq_and_eq_of_fKey hsum).1
    _ ≤ fMag w := hscaled

/-- Settles O44: only the word under the cursor changes, and it does not grow; that the gain is below 1.0
is not needed, 1.0 serves as well. -/
theorem combSlotsDecay : Obligations.CombSlotsDecay := by
  intro cap u u' y hok hgain _ hfinite hstep a
  rw [combStep_eq _ hok] at hstep
  cases hstep
  rw [wordOrZero_lineStored _ hok]
  by_cases ha : a = u.cur
  · rw [if_pos ha, ha]
    exact fMag_comb_word_le (hfinite _) hgain
  · rw [if_neg ha]

end Sys2Proof.Machine
end

section
/-! SUPPORT. The phaser: one stage and the cascade of stages (R240), and the block commands (R241,
R242). -/

namespace Sys2Proof.Machine

section
variable {c : Config} {gain : F32} {lim : Nat}

/-! ### One stage (R240) -/

/-- What a stage gives out for the input `y`: the allpass readback of the word under the corrected
cursor. -/
def phaReadback (gain : F32) (lim : Nat) (st : PhaStage) (y : F32) : F32 :=
  allpassOut (wordOrZero st.buf (phaWrap lim st.cur)) gain y

/-- What a stage becomes for the input `y`: the word under the corrected cursor is replaced, and the
cursor moves on and wraps at the limit. -/
def phaStored (gain : F32) (lim : Nat) (st : PhaStage) (y : F32) : PhaStage where
  cur := phaWrap lim (phaWrap lim st.cur + 1)
  buf := wordStore st.buf (phaWrap lim st.cur)
    (allpassNew (wordOrZero st.buf (phaWrap lim st.cur)) gain y)

/-- A stage within its bounds makes both of its buffer accesses and answers. -/
theorem phaStage_eq {st : PhaStage} (y : F32) (hlim : lim ≤ c.capPha) (hcur : st.cur < c.capPha) :
    phaStage c gain lim st y = .ok (phaReadback gain lim st y, phaStored gain lim st y) := by
  have hp : phaWrap lim st.cur < c.capPha := phaWrap_lt hlim (Nat.zero_lt_of_lt hcur)
  rw [phaStage, memRead_of_lt _ hp, except_bind_ok, memWrite_of_lt _ _ hp, except_bind_ok, phaReadback,
    phaStored]

/-- Only the word under the corrected cursor changes: it becomes the readback, scaled, plus the input. -/
theorem wordOrZero_phaStored {cap : Nat} {st : PhaStage} (y : F32)
    (hwf : Memory.wf cap st.buf = true) (a : Nat) :
    wordOrZero (phaStored gain lim st y).buf a
      = if a = phaWrap lim st.cur then fAdd (fMul (phaReadback gain lim st y) gain) y
        else wordOrZero st.buf a :=
  wordOrZero_wordStore _ a _ hwf

/-! ### The cascade (R240) -/

/-- The signal that reaches stage `k` of a cascade with the input `y`; past the last stage, the
cascade's output. -/
def phaSignal (gain : F32) (lim : Nat) : List PhaStage → F32 → Nat → F32
  | [], y, _ => y
  | _ :: _, y, 0 => y
  | st :: rest, y, k + 1 => phaSignal gain lim rest (phaReadback gain lim st y) k

theorem phaSignal_zero (stages : List PhaStage) (y : F32) : phaSignal gain lim stages y 0 = y := by
  cases stages <;> rfl

/-- Each stage feeds the next. -/
theorem phaSignal_succ {stages : List PhaStage} {k : Nat} {st : PhaStage} (hst : stages[k]? = some st)
    (y : F32) :
    phaSignal gain lim stages y (k + 1)
      = phaReadback gain lim st (phaSignal gain lim stages y k) := by
  induction stages generalizing k y with
  | nil => cases hst
  | cons first rest ih =>
    cases k with
    | zero =>
      cases hst
      exact phaSignal_zero rest _
    | succ k => exact ih hst _

/-- The stages after one sample: each has stored what the signal at its input makes it store. -/
def phaStages (gain : F32) (lim : Nat) (stages : List PhaStage) (y : F32) : List PhaStage :=
  stages.mapIdx fun k st => phaStored gain lim st (phaSignal gain lim stages y k)

theorem phaStages_cons (st : PhaStage) (rest : List PhaStage) (y : F32) :
    phaStages gain lim (st :: rest) y
      = phaStored gain lim st y :: phaStages gain lim rest (phaReadback gain lim st y) := by
  rw [phaStages, List.mapIdx_cons]
  rfl

/-- A cascade of stages within their bounds answers the signal past its last stage. -/
theorem phaCascade_eq (hlim : lim ≤ c.capPha) {stages : List PhaStage}
    (hcur : ∀ st ∈ stages, st.cur < c.capPha) (y : F32) :
    phaCascade c gain lim stages y
      = .ok (phaSignal gain lim stages y stages.length, phaStages gain lim stages y) := by
  induction stages generalizing y with
  | nil => rfl
  | cons st rest ih =>
    obtain ⟨hfirst, hrest⟩ := List.forall_mem_cons.1 hcur
    rw [phaCascade, phaStage_eq y hlim hfirst, except_bind_ok]
    dsimp only
    rw [ih hrest, except_bind_ok, phaStages_cons]
    rfl

/-! ### One sample (R240) -/

/-- Within its bounds the phaser answers the input less the scaled output of its cascade. -/
theorem stepPha_eq {ph : Pha} (x l : F32) (hcap : 1 ≤ c.capPha) (h : Pha.Ok c ph) :
    stepPha c ph x l
      = .ok (fSub x (fMul (phaSignal ph.gain (phaLimit c ph.depth l) ph.stages x c.nPhaStages) ph.depth),
          { ph with stages := phaStages ph.gain (phaLimit c ph.depth l) ph.stages x }) := by
  obtain ⟨hlen, hstages⟩ := h
  obtain ⟨-, hlim⟩ := phaLimit_mem ph.depth l hcap
  rw [stepPha, phaCascade_eq hlim (fun st hst => (hstages st hst).1), except_bind_ok, hlen]

/-- A phaser without stages needs no capacity: its cascade makes no access. -/
theorem stepPha_ok_of_ok {ph : Pha} (x l : F32) (h : Pha.Ok c ph) :
    ∃ y ph', stepPha c ph x l = .ok (y, ph') ∧ Pha.Ok c ph' := by
  cases hs : ph.stages with
  | nil =>
    have hstep : stepPha c ph x l = .ok (fSub x (fMul x ph.depth), { ph with stages := [] }) := by
      rw [stepPha, hs, phaCascade, except_bind_ok]
    exact ⟨_, _, hstep, by rw [Pha.Ok, ← hs]; exact h⟩
  | cons st rest =>
    obtain ⟨hcur, -⟩ := h.2 st (by rw [hs]; exact List.mem_cons_self)
    obtain ⟨y, ph', hstep, hok, -⟩ := stepPha_ok ph x l (Nat.one_le_of_lt hcur) h
    exact ⟨y, ph', hstep, hok⟩

end

/-- Settles O50: the signal between the stages is `phaSignal`, and each stage stores by `phaStored`. -/
theorem phaSample : Obligations.PhaSample := by
  intro c ph x l hok hcap lim wrap
  obtain ⟨hlo, hhi⟩ := phaLimit_mem ph.depth l hcap
  refine ⟨hlo, hhi, _, _, stepPha_eq x l hcap hok, rfl, List.length_mapIdx,
    phaSignal_zero ph.stages x, fun k st st' hst hst' => ?_⟩
  obtain ⟨-, hwf⟩ := hok.2 st (List.mem_of_getElem? hst)
  rw [phaStages, List.getElem?_mapIdx, hst, Option.map_some, Option.some.injEq] at hst'
  subst hst'
  exact ⟨phaSignal_succ hst x, rfl, wordOrZero_phaStored _ hwf⟩

/-! ### The block commands with a modulation block (R82) -/

/-- Formats P and I of a class with a modulation block, every check passed (R93, R94). -/
theorem procModUnit_and_prociModUnit_blockResult {U : Type} {units : List U}
    {put : State → Nat → U → State} {rule : Config → SampleRule U} {start : U → U} {P : U → Prop}
    {i : Nat} {u : U} {s : State} (hu : units[i]? = some u) (hP : P (start u))
    (hrule : ∀ u x m, P u → ∃ y u', rule s.cfg u x m = .ok (y, u') ∧ P u')
    (hput : KeepsBlocks fun s' u' => put s' i u') :
    (∀ bD bS bM, bD < s.cfg.nBlk → bS < s.cfg.nBlk → bM < s.cfg.nBlk → bD ≠ bS → bM ≠ bD →
        BlockResult (rule s.cfg) (fun s' u' => put s' i u') bD bS bM (start u) s
          (procModUnit units put start rule i bD bS bM s))
      ∧ ∀ bX bM, bX < s.cfg.nBlk → bM < s.cfg.nBlk → bM ≠ bX →
        BlockResult (rule s.cfg) (fun s' u' => put s' i u') bX bX bM (start u) s
          (prociModUnit units put start rule i bX bM s) :=
  ⟨fun _ _ _ hD hS hM hDS hMD => procModUnit_blockResult hu hP hrule hput hD hS hM hDS hMD,
    fun _ _ hX hM hMX => prociModUnit_blockResult hu hP hrule hput hX hM hMX⟩

/-- Settles O51: the rule answers from every phaser within its bounds and leaves one, so the two block
commands have a result. -/
theorem phaBlock : Obligations.PhaBlock := by
  intro s i ph hph hok
  have hruns : ∀ (u : Pha) (x m : F32), Pha.Ok s.cfg u →
      ∃ y u', stepPha s.cfg u x m = .ok (y, u') ∧ Pha.Ok s.cfg u' :=
    fun _ x m hu => stepPha_ok_of_ok x m hu
  exact procModUnit_and_prociModUnit_blockResult (put := putPha) (start := id) hph hok hruns
    fun _ _ _ => ⟨rfl, rfl, rfl, rfl⟩

end Sys2Proof.Machine
end

section
/-! SUPPORT. The vibrato: one sample (R251) and the block commands (R250, R252, R253). The tremolo: the
block commands (R260 to R262). -/

namespace Sys2Proof.Machine

section
variable {c : Config} {v : Vib}

/-! ### One sample of the vibrato (R251) -/

theorem vibReadCursor_lt (l : F32) (h : Vib.Ok c v) : vibReadCursor c v l < c.capVib :=
  mod_lt_of_lt h.2.2.1

/-- The buffer after one sample of the vibrato: the input under the write cursor. -/
theorem wordOrZero_vibStored (x : F32) (h : Vib.Ok c v) (a : Nat) :
    wordOrZero (wordStore v.buf v.wcur x) a = if a = v.wcur then x else wordOrZero v.buf a := by
  obtain ⟨-, -, -, hwf⟩ := h
  exact wordOrZero_wordStore _ a x hwf

/-- The delayed sample: the write comes first, so at delay 0 the read finds the input. -/
def vibDelayed (c : Config) (v : Vib) (x l : F32) : F32 :=
  if vibReadCursor c v l = v.wcur then x else wordOrZero v.buf (vibReadCursor c v l)

/-- Within its bounds the rule makes both buffer accesses of R251 and answers. -/
theorem stepVib_eq (x l : F32) (h : Vib.Ok c v) :
    stepVib c v x l
      = .ok (fAdd (fMul (vibDelayed c v x l) v.depth) (fMul x (fSub fOne v.depth)),
          { v with buf := wordStore v.buf v.wcur x, wcur := (v.wcur + 1) % c.capVib }) := by
  have hread := wordOrZero_vibStored x h (vibReadCursor c v l)
  have hr := vibReadCursor_lt l h
  obtain ⟨-, -, hcur, -⟩ := h
  rw [stepVib, memWrite_of_lt _ _ hcur, except_bind_ok, memRead_of_lt _ hr, except_bind_ok, hread,
    vibDelayed]

end

/-- Settles O53: the read cursor is in the buffer, and the rule's equation gives the rest. -/
theorem vibSample : Obligations.VibSample := fun _ _ x l h =>
  ⟨vibReadCursor_lt l h, _, stepVib_eq x l h, rfl, wordOrZero_vibStored x h⟩

/-! ### The block commands (R250, R252, R253, R261, R262) -/

/-- Settles O54: the ramp keeps the vibrato within its bounds, and from there the rule answers and keeps
it so. -/
theorem vibBlock : Obligations.VibBlock := by
  intro s i v hv hok ramped
  have hramped : ramped = rampVib v := rfl
  rw [hramped]
  have hruns : ∀ (u : Vib) (x m : F32), Vib.Ok s.cfg u →
      ∃ y u', stepVib s.cfg u x m = .ok (y, u') ∧ Vib.Ok s.cfg u' := by
    intro u x m hu
    obtain ⟨y, u', hstep, hok', -⟩ := stepVib_ok u x m hu
    exact ⟨y, u', hstep, hok'⟩
  exact procModUnit_and_prociModUnit_blockResult (put := putVib) hv (rampVib_ok hok) hruns
    fun _ _ _ => ⟨rfl, rfl, rfl, rfl⟩

/-- Settles O55: `stepTrm` is the rule written out in the statement, and never stops. -/
theorem trmBlock : Obligations.TrmBlock := by
  intro s i t ht rule
  have hrule : rule = stepTrm s.cfg := rfl
  rw [hrule]
  have hruns : ∀ (u : Trm) (x m : F32), True → ∃ y u', stepTrm s.cfg u x m = .ok (y, u') ∧ True :=
    fun _ _ _ _ => ⟨_, _, rfl, trivial⟩
  exact procModUnit_and_prociModUnit_blockResult (put := putTrm) (start := id) ht trivial hruns
    fun _ _ _ => ⟨rfl, rfl, rfl, rfl⟩

end Sys2Proof.Machine
end

section
/-! SUPPORT. The pitch shifter: the distances of its two read cursors, one sample (R270), the delay by half
the buffer (R276), and the block commands (R271, R272). -/

namespace Sys2Proof.Machine

section
variable {c : Config} {u : Psh}

/-! ### The read cursors (R270) -/

theorem pshRead1_lt (h : u.wcur < c.capPsh) : pshRead1 c u < c.capPsh := by
  rw [pshRead1]
  omega

theorem pshRead2_lt (h : u.wcur < c.capPsh) : pshRead2 c u < c.capPsh := mod_lt_of_lt h

/-- How far a cursor `i` of a buffer of `cap` words is behind the write cursor `w`. -/
theorem behind_eq {cap w i : Nat} (hw : w < cap) (hi : i < cap) :
    (w + cap - i) % cap = if i ≤ w then w - i else w + cap - i := by
  split
  · rw [Nat.mod_eq_sub_mod (by omega), Nat.mod_eq_of_lt (by omega)]
    omega
  · exact Nat.mod_eq_of_lt (by omega)

/-- The cursor half a buffer on from `i`. -/
theorem halfOn_eq {cap i : Nat} (hi : i < cap) :
    (i + cap / 2) % cap = if i + cap / 2 < cap then i + cap / 2 else i + cap / 2 - cap := by
  split
  · exact Nat.mod_eq_of_lt ‹_›
  · rw [Nat.mod_eq_sub_mod (by omega), Nat.mod_eq_of_lt (by omega)]

/-- The two read cursors are half a buffer apart, so where one is near the write cursor the other is as
far from it as that leaves. -/
theorem pshDistance_add (h : u.wcur < c.capPsh) (heven : c.capPsh % 2 = 0) :
    pshDistance c u (pshRead1 c u) + pshDistance c u (pshRead2 c u) = c.capPsh / 2 := by
  have hr1 := pshRead1_lt h
  have hr2 := pshRead2_lt h
  rw [pshDistance, pshDistance, behind_eq h hr1, behind_eq h hr2]
  rw [pshRead2, pshHalf, halfOn_eq hr1]
  -- Which cursors are past the write cursor, and whether the second one has wrapped.
  split <;> split <;> split <;> omega

/-! ### One sample (R270) -/

/-- The crossfade of the two words that the read cursors stand at. -/
def pshCrossfade (c : Config) (u : Psh) : F32 :=
  pshWet (wordOrZero u.buf (pshRead1 c u)) (pshWeight c u (pshRead1 c u))
    (wordOrZero u.buf (pshRead2 c u)) (pshWeight c u (pshRead2 c u))

/-- The word under the write cursor after one sample: the input and the feedback. -/
def pshStored (c : Config) (u : Psh) (x : F32) : F32 := fAdd x (fMul (pshCrossfade c u) u.feedback)

/-- Within its bounds the rule makes its two reads and then its write, and answers. -/
theorem stepPsh_eq (x m : F32) (h : Psh.Ok c u) :
    stepPsh c u x m
      = .ok (fAdd (fMul x (fSub fOne u.mix)) (fMul (pshCrossfade c u) u.mix),
          { u with
            buf := wordStore u.buf u.wcur (pshStored c u x)
            wcur := (u.wcur + 1) % c.capPsh
            rpos := pshAdvance c u }) := by
  obtain ⟨hcur, -⟩ := h
  rw [stepPsh, memRead_of_lt _ (pshRead1_lt hcur), except_bind_ok, memRead_of_lt _ (pshRead2_lt hcur),
    except_bind_ok]
  dsimp only
  rw [memWrite_of_lt _ _ hcur, except_bind_ok]
  rfl

/-- Only the word under the write cursor changes. -/
theorem wordOrZero_pshStored (x : F32) (h : Psh.Ok c u) (a : Nat) :
    wordOrZero (wordStore u.buf u.wcur (pshStored c u x)) a
      = if a = u.wcur then pshStored c u x else wordOrZero u.buf a := by
  obtain ⟨-, hwf⟩ := h
  exact wordOrZero_wordStore _ a _ hwf

end

/-- Settles O57: the distances of the two cursors, the rule's equation, and the one word it changes. -/
theorem pshSample : Obligations.PshSample := fun _ _ x m h heven =>
  ⟨pshDistance_add h.1 heven, _, stepPsh_eq x m h, rfl, wordOrZero_pshStored x h⟩

/-! ### The delay by half the buffer (R276) -/

/-- A zero added from the left keeps the value, as one added from the right does. -/
theorem fInt_zero_fAdd {x z : F32} (hx : fIsFinite x = true) (hz : fMag z = 0) :
    fInt (fAdd z x) = fInt x := by
  rw [fAdd_finite (finite_of_fMag_zero hz) hx]
  exact fInt_fAddFinite_exact hx (by rw [fInt_eq_zero_iff.2 hz, Int.zero_add])

/-- A pattern with the key of a finite one is finite. -/
theorem fIsFinite_of_fKey {x y : F32} (hx : fIsFinite x = true) (h : fKey y = fKey x) :
    fIsFinite y = true := by
  obtain ⟨hmag, -⟩ := fMag_eq_and_eq_of_fKey h
  rw [fIsFinite_iff, hmag]
  exact fIsFinite_iff.1 hx

theorem fKey_zero_fAdd {x z : F32} (hx : fIsFinite x = true) (hz : fMag z = 0) :
    fKey (fAdd z x) = fKey x :=
  fInt_eq_iff.1 (fInt_zero_fAdd hx hz)

theorem fDiv_self {a : F32} (ha : fIsFinite a = true) (h0 : fMag a ≠ 0) : fDiv a a = fOne := by
  have hpos : 0 < fUnits a := Nat.pos_of_ne_zero (mt fUnits_eq_zero.1 h0)
  have hround : roundMag (fUnits a * 2 ^ 149) (fUnits a) = fMag fOne :=
    roundMag_exact hpos (by decide) (by rw [← fUnits_fOne, Nat.mul_comm]; rfl)
  simp only [fDiv, not_nan_of_finite ha, not_inf_of_finite ha, h0, Bool.or_self, Bool.false_eq_true,
    if_false, bne_self_eq_false, hround]
  rfl

theorem u2f_zero : u2f 0 = fZero := by decide

theorem fMag_u2f_ne_zero {n : Nat} (h : n ≤ 2 ^ 24) (hpos : 0 < n) : fMag (u2f n) ≠ 0 := by
  rw [Ne, ← fInt_eq_zero_iff, fInt_u2f h]
  exact_mod_cast (Nat.mul_pos hpos (Nat.two_pow_pos 149)).ne'

/-- Counting on by one is exact: the sum is rounded as the whole number itself is. -/
theorem fAdd_u2f_fOne {n : Nat} (h : n < 2 ^ 24) : fAdd (u2f n) fOne = u2f (n + 1) := by
  have hsum : fInt (u2f n) + fInt fOne = (((n + 1) * 2 ^ 149 : Nat) : Int) := by
    rw [fInt_u2f h.le, (by decide : fInt fOne = 2 ^ 149)]
    push_cast
    ring
  have hpos : 0 < (n + 1) * 2 ^ 149 := Nat.mul_pos (Nat.succ_pos n) (Nat.two_pow_pos 149)
  rw [fAdd_finite (u2f_exact h.le).2.2 (by decide), fAddFinite, hsum, if_neg (by omega),
    decide_eq_false (by omega), Int.natAbs_natCast]
  rfl

/-- A finite number less itself is +0.0. -/
theorem fSub_self {a : F32} (ha : fIsFinite a = true) : fSub a a = fZero := by
  rw [fSub_finite_eq ha ha, fAdd_exact_zero ha (by rwa [fIsFinite_fNeg]) (by rw [fInt_fNeg]; omega),
    fSign_fNeg, Bool.and_not_self]
  rfl

theorem capPsh_even {c : Config} (h : configLegal c = true) : c.capPsh % 2 = 0 := by
  simp only [configLegal, capsLegal, Bool.and_eq_true, decide_eq_true_eq] at h
  obtain ⟨⟨-, -, heven⟩, -⟩ := h
  exact heven

theorem pshHalf_bounds {c : Config} (h : configLegal c = true) :
    0 < pshHalf c ∧ pshHalf c ≤ 2 ^ 24 := by
  obtain ⟨h8, h24⟩ := psh_caps_of_configLegal h
  rw [pshHalf]
  omega

section
variable {c : Config} {u : Psh}

/-- At speed 1.0 the read position moves on, and wraps, with the write cursor. -/
theorem pshAdvance_eq (hc : configLegal c = true) (hcur : u.wcur < c.capPsh)
    (hpos : u.rpos = u2f u.wcur) (hspeed : u.speed = fOne) :
    pshAdvance c u = u2f ((u.wcur + 1) % c.capPsh) := by
  obtain ⟨-, h24⟩ := psh_caps_of_configLegal hc
  have hsum : fAdd u.rpos u.speed = u2f (u.wcur + 1) := by
    rw [hpos, hspeed, fAdd_u2f_fOne (by omega)]
  have hwraps : fGe (u2f (u.wcur + 1)) (u2f c.capPsh) = true ↔ c.capPsh ≤ u.wcur + 1 := by
    rw [fGe, fLe_iff (fIsNaN_u2f h24) (fIsNaN_u2f (by omega)), fInt_u2f h24, fInt_u2f (by omega)]
    omega
  rw [pshAdvance, hsum]
  by_cases hend : c.capPsh ≤ u.wcur + 1
  · have hlast : u.wcur + 1 = c.capPsh := by omega
    rw [if_pos (hwraps.2 hend), hlast, fSub_self (u2f_exact h24).2.2, Nat.mod_self, u2f_zero]
  · rw [if_neg (mt hwraps.1 hend), Nat.mod_eq_of_lt (by omega)]

theorem pshRead1_eq_wcur (hc : configLegal c = true) (hcur : u.wcur < c.capPsh)
    (hpos : u.rpos = u2f u.wcur) : pshRead1 c u = u.wcur := by
  obtain ⟨-, h24⟩ := psh_caps_of_configLegal hc
  rw [pshRead1, hpos, f2u32_u2f (by omega)]
  omega

theorem pshDistance_wcur : pshDistance c u u.wcur = 0 := by
  rw [pshDistance, Nat.add_sub_cancel_left, Nat.mod_self, Nat.zero_min]

/-- With the first read cursor at the write cursor, its word has no weight and the other, half a buffer
on, has the whole weight. -/
theorem pshWeights_eq (hc : configLegal c = true) (hcur : u.wcur < c.capPsh)
    (hread : pshRead1 c u = u.wcur) :
    pshWeight c u (pshRead1 c u) = fZero ∧ pshWeight c u (pshRead2 c u) = fOne := by
  obtain ⟨hpos, hle⟩ := pshHalf_bounds hc
  have hnear : pshDistance c u (pshRead1 c u) = 0 := by rw [hread, pshDistance_wcur]
  have hfar : pshDistance c u (pshRead2 c u) = pshHalf c := by
    rw [pshHalf, ← pshDistance_add hcur (capPsh_even hc), hnear, Nat.zero_add]
  have hmag := fMag_u2f_ne_zero hle hpos
  obtain ⟨-, hsign, hfin⟩ := u2f_exact hle
  rw [pshWeight, pshWeight, hnear, hfar, u2f_zero]
  exact ⟨fZero_fDiv_pos (not_nan_of_finite hfin) hsign hmag, fDiv_self hfin hmag⟩

/-- The crossfade is then the word half a buffer on, up to the sign of zero. -/
theorem fKey_pshCrossfade (hc : configLegal c = true) (hcur : u.wcur < c.capPsh)
    (hread : pshRead1 c u = u.wcur) (hfinite : ∀ a, fIsFinite (wordOrZero u.buf a) = true) :
    fKey (pshCrossfade c u) = fKey (wordOrZero u.buf (pshRead2 c u)) := by
  obtain ⟨hnone, hwhole⟩ := pshWeights_eq hc hcur hread
  rw [pshCrossfade, pshWet, hnone, hwhole, fMul_fOne (hfinite _)]
  exact fKey_zero_fAdd (hfinite _) (fMag_fMul_zero (hfinite _) (by decide) (.inr (by decide)))

end

/-- Settles O58: the crossfade is the word half a buffer on; fully wet it is the output, and without
feedback the word stored is the input plus a zero. -/
theorem pshDelaysByHalfTheBuffer : Obligations.PshDelaysByHalfTheBuffer := by
  intro c u x m hc hok (hspeed : u.speed = fOne) (hmix : u.mix = fOne) (hfeedback : u.feedback = fZero)
    hpos hx hfinite
  have hcur : u.wcur < c.capPsh := hok.1
  have hread := pshRead1_eq_wcur hc hcur hpos
  have hwet := fKey_pshCrossfade hc hcur hread hfinite
  have hwetfin := fIsFinite_of_fKey (hfinite _) hwet
  have hdelayed : pshRead2 c u = (u.wcur + c.capPsh / 2) % c.capPsh := by
    rw [pshRead2, hread, pshHalf]
  have hword := wordOrZero_pshStored x hok
  refine ⟨_, _, stepPsh_eq x m hok, ?output, ?stored, fun a ha => ?others, rfl,
    pshAdvance_eq hc hcur hpos hspeed⟩
  case output =>
    have hdry : fMag (fMul x (fSub fOne fOne)) = 0 := fMag_fMul_zero hx (by decide) (.inr (by decide))
    rw [hmix, fMul_fOne hwetfin, fKey_zero_fAdd hwetfin hdry, hwet, hdelayed]
  case stored =>
    rw [hword, if_pos rfl, pshStored, hfeedback]
    exact fKey_fAdd_zero hx (fMag_fMul_zero hwetfin (by decide) (.inr (by decide)))
  case others => rw [hword, if_neg ha]

/-! ### The block commands (R271, R272) -/

/-- Settles O59: the rule answers from every pitch shifter within its bounds and leaves one, so the two
block commands have a result. -/
theorem pshBlock : Obligations.PshBlock := by
  intro s i u hu hok
  have hruns : ∀ (u : Psh) (x m : F32), Psh.Ok s.cfg u →
      ∃ y u', stepPsh s.cfg u x m = .ok (y, u') ∧ Psh.Ok s.cfg u' := by
    intro u x m hu
    obtain ⟨y, u', hstep, hok', -⟩ := stepPsh_ok u x m hu
    exact ⟨y, u', hstep, hok'⟩
  exact procUnit_and_prociUnit_blockResult (put := putPsh) hu hok hruns
    fun _ _ _ => ⟨rfl, rfl, rfl, rfl⟩

end Sys2Proof.Machine
end

section
/-! SUPPORT. The fault state (R282, R283) and hard reset (R300): what each action of the host does there,
what every run without a hard reset keeps, and the value of each register after a hard reset. -/

namespace Sys2Proof.Machine

/-! ### The fault state (R282, R283) -/

/-- The ports, the units and the global multipliers of `t` are those of `s`. -/
def SameRegisters (s t : State) : Prop :=
  t.status = s.status ∧ t.faultcw = s.faultcw ∧ t.resp = s.resp ∧ t.units = s.units
    ∧ t.octmul = s.octmul ∧ t.gpm = s.gpm

theorem SameRegisters.refl (s : State) : SameRegisters s s := ⟨rfl, rfl, rfl, rfl, rfl, rfl⟩

theorem SameRegisters.trans {s t r : State} (h : SameRegisters s t) (h' : SameRegisters t r) :
    SameRegisters s r := by
  obtain ⟨h1, h2, h3, h4, h5, h6⟩ := h
  obtain ⟨k1, k2, k3, k4, k5, k6⟩ := h'
  exact ⟨k1.trans h1, k2.trans h2, k3.trans h3, k4.trans h4, k5.trans h5, k6.trans h6⟩

/-- A command word is ignored. -/
theorem issue_of_fault {cw : CmdWord} {s : State} (hf : statusFault s.status = true) :
    issue cw s = .next s := by
  simp [issue, hf]

/-- In the fault state no action but a hard reset changes a register. -/
theorem hostStep_of_fault {a : HostAction} {s t : State} (hf : statusFault s.status = true)
    (ha : a ≠ .hardReset) (h : hostStep a s = .next t) : SameRegisters s t ∧ t.host = s.host := by
  cases a with
  | issue cw =>
    rw [hostStep, issue_of_fault hf] at h
    cases h
    exact ⟨.refl s, rfl⟩
  | writeSample i n v =>
    simp only [hostStep] at h
    split at h
    · cases h
      exact ⟨.refl s, rfl⟩
    · cases h
  | readSample i n =>
    simp only [hostStep] at h
    split at h
    · cases h
      exact ⟨.refl s, rfl⟩
    · cases h
  | readStatus => cases h; exact ⟨.refl s, rfl⟩
  | readFaultcw => cases h; exact ⟨.refl s, rfl⟩
  | readResp => cases h; exact ⟨.refl s, rfl⟩
  | hardReset => exact absurd rfl ha

/-- A step of a host that asks for no hard reset keeps the registers, and still none is asked for. -/
theorem step_of_fault {s t : State} (hf : statusFault s.status = true)
    (hreset : HostAction.hardReset ∉ s.host) (h : step s = .next t) :
    SameRegisters s t ∧ HostAction.hardReset ∉ t.host := by
  obtain ⟨hc, -⟩ := step_next h
  cases hhost : s.host with
  | nil =>
    rw [step_idle hc hhost] at h
    cases h
    exact ⟨.refl s, hreset⟩
  | cons a rest =>
    rw [hhost, List.mem_cons, not_or] at hreset
    obtain ⟨ha, hrest⟩ := hreset
    rw [step_action hc hhost] at h
    obtain ⟨hsame, hleft⟩ := hostStep_of_fault (s := { s with host := rest }) hf (Ne.symm ha) h
    exact ⟨hsame, by rwa [hleft]⟩

/-- A run that answers a next state answers one at its first step, and goes on from there. -/
theorem run_succ_next {M : Host.Core} {k : Nat} {s t : M.State} (h : M.run (k + 1) s = .next t) :
    ∃ s', M.step s = .next s' ∧ M.run k s' = .next t := by
  rw [Host.Core.run] at h
  split at h
  · exact ⟨_, ‹_›, h⟩
  · cases h
  · cases h

/-- Settles O14, by induction on the number of steps: the registers that each step keeps include the fault
bit, so the next step starts in the fault state too. -/
theorem faultIsStickyUntilHardReset : Obligations.FaultIsStickyUntilHardReset := by
  intro k
  induction k with
  | zero =>
    intro s t _ _ h
    cases h
    exact SameRegisters.refl s
  | succ k ih =>
    intro s t hf hreset h
    obtain ⟨s', hstep, hrun⟩ := run_succ_next h
    obtain ⟨hsame, hreset'⟩ := step_of_fault hf hreset hstep
    have hf' : statusFault s'.status = true := by rwa [hsame.1]
    exact hsame.trans (ih s' t hf' hreset' hrun)

/-- Settles O8: a command is ignored, and each other action by its equation, which does not ask for the
fault bit. -/
theorem faultStateIgnoresCommands : Obligations.FaultStateIgnoresCommands := by
  intro s rest hc hf
  refine ⟨fun cw hhost => ?issue, fun i n hi hn hhost => ?readSample,
    fun i n v hi hn hhost => ?writeSample, step_action hc, step_action hc, step_action hc⟩
  case issue =>
    rw [step_action hc hhost]
    exact issue_of_fault hf
  case readSample =>
    rw [step_action hc hhost]
    exact hostStep_readSample hi hn
  case writeSample =>
    rw [step_action hc hhost]
    exact hostStep_writeSample v hi hn

/-! ### Hard reset (R300) -/

/-- Settles O10: each class is a number of copies of its hard-reset value, whose fields are the columns of
R28 to R39. -/
theorem hardResetGivesTheResetColumns : Obligations.HardResetGivesTheResetColumns := by
  intro s rest hc hhost
  refine ⟨hardReset { s with host := rest }, step_action hc hhost, rfl, rfl, rfl, rfl, rfl, rfl, rfl,
    powerOn_populated s.cfg (s.resets + 1), ?osc, ?flt, ?env, ?dly, ?cmb, ?apf, ?rev, ?pha, ?vib, ?trm,
    ?psh⟩
  case osc => exact List.forall_mem_replicate.2 (.inr rfl)
  case flt => exact List.forall_mem_replicate.2 (.inr rfl)
  case env => exact List.forall_mem_replicate.2 (.inr rfl)
  case dly => exact List.forall_mem_replicate.2 (.inr ⟨rfl, rfl, rfl, rfl, rfl, fun _ => rfl⟩)
  case cmb => exact List.forall_mem_replicate.2 (.inr ⟨rfl, rfl, rfl, fun _ => rfl⟩)
  case apf => exact List.forall_mem_replicate.2 (.inr ⟨rfl, rfl, rfl, fun _ => rfl⟩)
  case rev => exact List.forall_mem_replicate.2 (.inr ⟨rfl, rfl, rfl, rfl, rfl, rfl, rfl, rfl, rfl⟩)
  case pha =>
    exact List.forall_mem_replicate.2 (.inr ⟨rfl, rfl, List.length_replicate,
      List.forall_mem_replicate.2 (.inr ⟨rfl, fun _ => rfl⟩)⟩)
  case vib => exact List.forall_mem_replicate.2 (.inr ⟨rfl, rfl, rfl, rfl, fun _ => rfl⟩)
  case trm => exact List.forall_mem_replicate.2 (.inr rfl)
  case psh => exact List.forall_mem_replicate.2 (.inr ⟨rfl, rfl, rfl, rfl, rfl, fun _ => rfl⟩)

end Sys2Proof.Machine
end
